-- ==== Sys2Proof/Word.lean ====
section
/-! DEFINITION. The word types of the ports and of buffer memory (00_scope.md R11, 30_encoding.md R131, R140). -/

namespace Sys2Proof

/-- A 32-bit word: a command word, an operand word, a response word, a register, an address (R131, R64, R70). -/
abbrev Word := BitVec 32

/-- An 8-bit byte: one byte of buffer memory (R70) or one event word (R140). -/
abbrev Byte := BitVec 8

end Sys2Proof
end

