-- ==== Sys2Proof/Config.lean ====
section
/-! DEFINITION. What is fixed for a machine: the parameters of 00_scope.md R9, the read-only configuration tables of
10_state.md R31 to R34, and the free values. -/

namespace Sys2Proof

/-- Data width of a channel's frames: 8, 16 or 32 bits (10_state.md R31); no other width exists (00_scope.md R16). -/
inductive Width where
  | w8 | w16 | w32
  deriving DecidableEq, Repr, Inhabited

/-- Buffer kind of a channel: internal (driver-owned) or external (caller-supplied) (R31). -/
inductive BufKind where
  | ib | eb
  deriving DecidableEq, Repr, Inhabited

/-- `SPI_LEVEL_DELIVERED` 0, 1, 2: synchronous-only, asynchronous-only, both (00_scope.md R8). -/
inductive Level where
  | syncOnly | asyncOnly | both
  deriving DecidableEq, Repr, Inhabited

/-- `Cfg.Channel[c]` (R31). -/
structure ChannelCfg where
  bufKind : BufKind
  defaultValue : Word
  maxLength : Nat
  width : Width
  ibTxAddr : Word
  ibRxAddr : Word
  wmTx : Nat
  wmRx : Nat
  deriving DecidableEq, Repr, Inhabited

/-- The external device's attributes of a job, `Cfg.Job[j].Dev` (R32).
DEDUCED: the prescaler has 3 bits, the range 0 to 7 that 30_encoding.md R150 gives it (log 34); safe. -/
structure DevCfg where
  cpol : Bool
  cpha : Bool
  prescaler : BitVec 3
  frameSize : Nat
  clockTiming : Word
  csIdlePol : Word
  contCS : Bool
  deriving DecidableEq, Repr, Inhabited

/-- `Cfg.Job[j]` (R32); a notification is present or absent. -/
structure JobCfg where
  channels : List Nat
  hwUnit : Nat
  priority : Nat
  dev : DevCfg
  startNotif : Bool
  endNotif : Bool
  deriving DecidableEq, Repr, Inhabited

/-- `Cfg.Seq[s]` (R33). -/
structure SeqCfg where
  jobs : List Nat
  endNotif : Bool
  interruptible : Bool
  deriving DecidableEq, Repr, Inhabited

/-- `Cfg.Unit[u]` (R34). Its `Base` is entry `u` of the base-address table, `Params.base` (R34, 20_memory.md R104). -/
structure UnitCfg where
  slave : Bool
  isSync : Bool
  dmaUsed : Bool
  dmaTxCh : Nat
  dmaRxCh : Nat
  deriving DecidableEq, Repr, Inhabited

/-- The configuration that the handle of `INIT` names: the four tables (`NUM_*` are their lengths) and the two sizes of the
cache pools, `SPI_OPTIMIZED_SEQ_BUFFER_SIZE` and `SPI_OPTIMIZED_CHANNEL_BUFFER_SIZE` (R9, R31 to R34; 95_test_vectors.md
gives the pool sizes with each configuration). -/
structure Cfg where
  units : List UnitCfg
  channels : List ChannelCfg
  jobs : List JobCfg
  seqs : List SeqCfg
  seqPool : Nat
  chanPool : Nat
  deriving DecidableEq, Repr, Inhabited

/-- `OFF[reg]`: the offsets of the ten registers from a unit's base (20_memory.md R104). -/
structure RegOffsets where
  ver : Word
  param : Word
  ctrl : Word
  stat : Word
  clkcfg : Word
  fifoctrl : Word
  fifostat : Word
  txcmd : Word
  txdata : Word
  rxdata : Word
  deriving DecidableEq, Repr, Inhabited

/-- The parameters of 00_scope.md R9 that are not in the configuration tables. No rule writes them. -/
structure Params where
  /-- `SPI_LEVEL_DELIVERED` -/
  level : Level
  /-- `SPI_FIFO_SIZE`, in frames -/
  fifoSize : Nat
  /-- `SPI_TIMEOUT_COUNTER`, an unsigned 32-bit count (R10, R21) -/
  timeoutCounter : Word
  /-- `SPI_MAIN_FUNCTION_PERIOD`; read by no rule (43_polling_and_mode.md R281) -/
  mainFunctionPeriod : Nat
  /-- `SPI_SUPPORT_CONCURRENT_SYNC_TRANSMIT` -/
  concurrentSync : Bool
  /-- `SPI_SWAP_DATA_SUPPORT_32BITS`; only `false` has a meaning (20_memory.md R97) -/
  swap32 : Bool
  /-- `HOST_PREEMPTION` (20_memory.md R110) -/
  hostPreemption : Bool
  /-- `NESTED_IRQ` (20_memory.md R112) -/
  nestedIrq : Bool
  /-- `CANCEL_FIRES_SEQ_END_NOTIF` (46_cancel.md R376) -/
  cancelFiresSeqEnd : Bool
  /-- `SYNC_FIRES_SEQ_END_NOTIF` (44_sync_transmit.md R313) -/
  syncFiresSeqEnd : Bool
  /-- `SPI_DEV_ERROR_DETECT` (60_exceptions.md R391) -/
  devErrorDetect : Bool
  /-- `SPI_DEM_CONFIGURED` (60_exceptions.md R405) -/
  demConfigured : Bool
  /-- `MAX_CHANNELS` -/
  maxChannels : Nat
  /-- `MAX_JOBS` -/
  maxJobs : Nat
  /-- `MAX_SEQUENCES` -/
  maxSequences : Nat
  /-- `BASE[0..12]`, the 13-entry base-address table -/
  base : List Word
  /-- `OFF[reg]` -/
  off : RegOffsets
  deriving DecidableEq, Repr, Inhabited

/-- The command word, a record (10_state.md R65). -/
structure CmdWord where
  width : Width
  cpol : Bool
  cpha : Bool
  prescaler : BitVec 3
  cont : Bool
  deriving DecidableEq, Repr, Inhabited

/-- What stands in a transmit FIFO: frames, with the command words written between them (10_state.md R68 (P5)). -/
inductive TxItem where
  | cmd (c : CmdWord)
  | frame (v : Word)
  deriving DecidableEq, Repr, Inhabited

/-- Free value: what a read of `RXDATA` gives when the receive FIFO is empty (10_state.md R68 (P2): "unspecified";
93_implementation_defined.md U1: any value). Indexed by `State.freeCount`. DESIGN CHOICE of form (log 13); safe. -/
opaque Config.emptyRxRead : Nat → Word

/-- Free value: what a transmit FIFO holds after a `TXDATA` write that found no room (R68 (P1) covers only room above 0).
Indexed by `State.freeCount`. DESIGN CHOICE of form (log 12); safe. -/
opaque Config.fullTxFifo : Nat → List TxItem

/-- What a synchronous time-out leaves in the peripheral of its unit (93_implementation_defined.md U8). -/
structure Residue where
  txItems : List TxItem
  shifting : Option Word
  rxFrames : List Word
  csHeld : Bool
  deriving DecidableEq, Repr, Inhabited

/-- Free value: the FIFO contents, the shifter and the chip-select line of a unit after a synchronous time-out (U8: any value;
70_reset_and_hazards.md R458: the hardware is dirty). Indexed by `State.freeCount`. DESIGN CHOICE of form (log 30); safe. -/
opaque Config.timeoutResidue : Nat → Residue

end Sys2Proof
end

