-- ==== Sys2Proof/Syntax.lean ====
section
/-! DEFINITION. The instructions: the fifteen commands and three events of spec/opcode_table.json (00_scope.md R3,
30_encoding.md R136, R141), one constructor a row. -/

namespace Sys2Proof

/-- Asynchronous mode operand: 0 = `POLLING`, 1 = `INTERRUPT` (30_encoding.md R137). -/
inductive Mode where
  | polling | interrupt
  deriving DecidableEq, Repr, Inhabited

/-- One externally triggered operation (R3). `id` is the 16-bit `ID` field, `a0 a1 a2` the operand words a command uses,
`unit` the 4-bit `UNIT` field of an event. -/
inductive Instr where
  | init (a0 : Word)
  | deinit
  | writeIb (chan : BitVec 16) (a0 : Word)
  | readIb (chan : BitVec 16) (a0 : Word)
  | setupEb (chan : BitVec 16) (a0 a1 a2 : Word)
  | syncTransmit (seq : BitVec 16)
  | asyncTransmit (seq : BitVec 16)
  | cancel (seq : BitVec 16)
  | getJobResult (job : BitVec 16)
  | getSeqResult (seq : BitVec 16)
  | getStatus
  | getHwunitStatus (unit : BitVec 16)
  | setAsyncMode (mode : Mode)
  | setHwunitAsyncMode (unit : BitVec 16) (mode : Mode)
  | mainFunctionHandling
  | evFifo (unit : BitVec 4)
  | evDmaTx (unit : BitVec 4)
  | evDmaRx (unit : BitVec 4)
  deriving DecidableEq, Repr, Inhabited

end Sys2Proof
end

