-- ==== Sys2Proof/WellFormed.lean ====
section
/-! DEFINITION. Which instructions the encoding admits: every operand value of a command is admitted (an id out of range is a
usage error, never a reserved encoding, 30_encoding.md R133); an event's unit is 0 to 12 (R142, R146). -/

namespace Sys2Proof

/-- `UNIT` 13 to 15 is reserved (R146). -/
def unitFieldOk (unit : BitVec 4) : Bool := decide (unit.toNat < 13)

/-- The well-formed instructions. -/
def Instr.wf : Instr → Bool
  | .init _ => true
  | .deinit => true
  | .writeIb _ _ => true
  | .readIb _ _ => true
  | .setupEb _ _ _ _ => true
  | .syncTransmit _ => true
  | .asyncTransmit _ => true
  | .cancel _ => true
  | .getJobResult _ => true
  | .getSeqResult _ => true
  | .getStatus => true
  | .getHwunitStatus _ => true
  | .setAsyncMode _ => true
  | .setHwunitAsyncMode _ _ => true
  | .mainFunctionHandling => true
  | .evFifo unit => unitFieldOk unit
  | .evDmaTx unit => unitFieldOk unit
  | .evDmaRx unit => unitFieldOk unit

end Sys2Proof
end

