-- ==== Sys2Proof/Decode.lean ====
section
/-! DEFINITION. The decoder of command and event words, total, rejecting by name (30_encoding.md R131, R136, R140, R141, R145,
R146), and the encoder after it, written from the same tables. -/

namespace Sys2Proof

/-- Why a word is reserved (R145 for commands, R146 for events). -/
inductive DecodeError where
  /-- `OP` is 0x00 or 0x10 to 0xFF. -/
  | reservedOp (op : Byte)
  /-- `Z` is not 0. -/
  | nonzeroZ
  /-- `MODE` is set in a command without a mode operand. -/
  | modeNotZero
  /-- `ID` is not 0 in a command without an id operand. -/
  | idNotZero
  /-- `KIND` is 0x0 or 0x4 to 0xF. -/
  | reservedKind (kind : BitVec 4)
  /-- `UNIT` is 13 to 15. -/
  | reservedUnit (unit : BitVec 4)
  deriving DecidableEq, Repr

/-- What is presented at a port: a command word with its three operand words (R131), or an event word (R140). -/
inductive PortWords where
  | command (cmd a0 a1 a2 : Word)
  | event (evt : Byte)
  deriving DecidableEq, Repr, Inhabited

/-- Field `OP`, bits 31:24 (R131). -/
def opField (cmd : Word) : Byte := cmd.extractLsb' 24 8
/-- Field `Z`, bits 23:17. -/
def zField (cmd : Word) : BitVec 7 := cmd.extractLsb' 17 7
/-- Field `MODE`, bit 16. -/
def modeField (cmd : Word) : BitVec 1 := cmd.extractLsb' 16 1
/-- Field `ID`, bits 15:0. -/
def idField (cmd : Word) : BitVec 16 := cmd.extractLsb' 0 16
/-- Field `KIND`, bits 7:4 (R140). -/
def kindField (evt : Byte) : BitVec 4 := evt.extractLsb' 4 4
/-- Field `UNIT`, bits 3:0. -/
def unitField (evt : Byte) : BitVec 4 := evt.extractLsb' 0 4

/-- `MODE`: 0 = `POLLING`, 1 = `INTERRUPT` (R137). -/
def modeOfBit (b : BitVec 1) : Mode := if b = 1#1 then .interrupt else .polling

/-- A command with an id operand and no mode operand: `MODE` must be 0 (R131). -/
def withId (cmd : Word) (f : BitVec 16 → Instr) : Except DecodeError Instr :=
  if modeField cmd = 0#1 then .ok (f (idField cmd)) else .error .modeNotZero

/-- A command with neither operand: `MODE` and `ID` must be 0 (R131). -/
def withNone (cmd : Word) (i : Instr) : Except DecodeError Instr :=
  if modeField cmd = 0#1 then (if idField cmd = 0#16 then .ok i else .error .idNotZero) else .error .modeNotZero

/-- A command with a mode operand only: `ID` must be 0 (R131). -/
def withMode (cmd : Word) (f : Mode → Instr) : Except DecodeError Instr :=
  if idField cmd = 0#16 then .ok (f (modeOfBit (modeField cmd))) else .error .idNotZero

/-- The opcode map (R136) for a word whose `Z` is 0. Operand words a command does not use are ignored (R131). -/
def decodeOp (cmd a0 a1 a2 : Word) : Except DecodeError Instr :=
  match (opField cmd).toNat with
  | 0x01 => withNone cmd (.init a0)
  | 0x02 => withNone cmd .deinit
  | 0x03 => withId cmd fun c => .writeIb c a0
  | 0x04 => withId cmd fun c => .readIb c a0
  | 0x05 => withId cmd fun c => .setupEb c a0 a1 a2
  | 0x06 => withId cmd .syncTransmit
  | 0x07 => withId cmd .asyncTransmit
  | 0x08 => withId cmd .cancel
  | 0x09 => withId cmd .getJobResult
  | 0x0A => withId cmd .getSeqResult
  | 0x0B => withNone cmd .getStatus
  | 0x0C => withId cmd .getHwunitStatus
  | 0x0D => withMode cmd .setAsyncMode
  | 0x0E => .ok (.setHwunitAsyncMode (idField cmd) (modeOfBit (modeField cmd)))
  | 0x0F => withNone cmd .mainFunctionHandling
  | _ => .error (.reservedOp (opField cmd))

/-- The command decoder (R131, R136, R145). -/
def decodeCommand (cmd a0 a1 a2 : Word) : Except DecodeError Instr :=
  if zField cmd = 0#7 then decodeOp cmd a0 a1 a2 else .error .nonzeroZ

/-- The event decoder (R140, R141, R146). -/
def decodeEvent (evt : Byte) : Except DecodeError Instr :=
  if (unitField evt).toNat < 13 then
    match (kindField evt).toNat with
    | 0x1 => .ok (.evFifo (unitField evt))
    | 0x2 => .ok (.evDmaTx (unitField evt))
    | 0x3 => .ok (.evDmaRx (unitField evt))
    | _ => .error (.reservedKind (kindField evt))
  else .error (.reservedUnit (unitField evt))

/-- The decoder of whatever a port presents; nothing changes how a word is decoded (R147). -/
def decode : PortWords → Except DecodeError Instr
  | .command cmd a0 a1 a2 => decodeCommand cmd a0 a1 a2
  | .event evt => decodeEvent evt

/-- What the ports present for `nbits` bits numbered as spec/opcode_table.json numbers them: 8 bits are an event word; 32 bits
are a command word, with the operand words `A0`, `A1`, `A2` in the bits above. -/
def portWordsOfBits (nbits w : Nat) : Option PortWords :=
  if nbits = 8 then some (.event (BitVec.ofNat 8 w))
  else if nbits = 32 then
    some (.command (BitVec.ofNat 32 w) (BitVec.ofNat 32 (w / 2 ^ 32)) (BitVec.ofNat 32 (w / 2 ^ 64))
      (BitVec.ofNat 32 (w / 2 ^ 96)))
  else none

/-- The instruction the decoder reads from an opcode-table word of `nbits` bits. -/
def decodeTableWord (nbits w : Nat) : Option Instr :=
  match portWordsOfBits nbits w with
  | none => none
  | some p =>
    match decode p with
    | .ok i => some i
    | .error _ => none

/-- `MODE` as a bit (R137). -/
def modeBit : Mode → BitVec 1
  | .polling => 0#1
  | .interrupt => 1#1

/-- The command word of format C (R131): `OP` from bit 24, `Z` = 0, `MODE` at bit 16, `ID` from bit 0. -/
def commandWord (op : Byte) (mode : BitVec 1) (id : BitVec 16) : Word :=
  BitVec.ofNat 32 (op.toNat * 0x1000000 + mode.toNat * 0x10000 + id.toNat)

/-- The event word of format E (R140): `KIND` from bit 4, `UNIT` from bit 0. -/
def eventWord (kind unit : BitVec 4) : Byte := BitVec.ofNat 8 (kind.toNat * 0x10 + unit.toNat)

/-- The encoder: the words of an instruction (R136, R141); operand words an instruction does not use are written 0. -/
def encode : Instr → PortWords
  | .init a0 => .command (commandWord 0x01 0 0) a0 0 0
  | .deinit => .command (commandWord 0x02 0 0) 0 0 0
  | .writeIb c a0 => .command (commandWord 0x03 0 c) a0 0 0
  | .readIb c a0 => .command (commandWord 0x04 0 c) a0 0 0
  | .setupEb c a0 a1 a2 => .command (commandWord 0x05 0 c) a0 a1 a2
  | .syncTransmit s => .command (commandWord 0x06 0 s) 0 0 0
  | .asyncTransmit s => .command (commandWord 0x07 0 s) 0 0 0
  | .cancel s => .command (commandWord 0x08 0 s) 0 0 0
  | .getJobResult j => .command (commandWord 0x09 0 j) 0 0 0
  | .getSeqResult s => .command (commandWord 0x0A 0 s) 0 0 0
  | .getStatus => .command (commandWord 0x0B 0 0) 0 0 0
  | .getHwunitStatus u => .command (commandWord 0x0C 0 u) 0 0 0
  | .setAsyncMode m => .command (commandWord 0x0D (modeBit m) 0) 0 0 0
  | .setHwunitAsyncMode u m => .command (commandWord 0x0E (modeBit m) u) 0 0 0
  | .mainFunctionHandling => .command (commandWord 0x0F 0 0) 0 0 0
  | .evFifo u => .event (eventWord 0x1 u)
  | .evDmaTx u => .event (eventWord 0x2 u)
  | .evDmaRx u => .event (eventWord 0x3 u)

end Sys2Proof
end

