-- ==== Sys2Proof/Machine/State.lean ====
section
/-! DEFINITION. Every piece of state the spec gives the machine, as plain data (10_state.md), the reasons a step can stop, and
the state after power-on (10_state.md R71, 70_reset_and_hazards.md R441). -/

namespace Sys2Proof.Machine

/-- Why a step stops with a fault. -/
inductive Fault where
  /-- Raised by every buffer access (frame loads and stores, the buffer commands, the DMA engine) at a byte past the 32-bit
  address space of 10_state.md R70: that byte does not exist. Safe: the model stops where the hardware has no address
  (log 9). -/
  | addressOutsideMemory
  /-- Raised by `CANCEL` on a slave unit whose module-busy flag stays set although no other agent can move any more: the stuck
  command of 46_cancel.md R379, 70_reset_and_hazards.md R460, U6. Safe (log 16). -/
  | moduleBusyForever
  /-- Raised by a channel init, a dispatch or a job start that finds `CurJob = None`, against 41_engine_fifo.md R212. Safe
  (log 25). -/
  | noCurrentJob
  /-- Raised by `JobTransferFinished` of a job whose `Owner` is `None`, against the precondition of 45_scheduler.md R345: a
  `CANCEL` on a slave unit whose job lost its owner (log 20). Safe (log 25). -/
  | jobWithoutOwner
  /-- Raised by `ScheduleNextJob` when `MaxPrio` names an empty list, against 10_state.md R61 (b). Safe (log 25). -/
  | emptyPriorityList
  /-- Raised where a 16-bit counter or cursor would fall below 0 or rise above 65535 (00_scope.md R15, R21, 10_state.md R50, R51;
  93_implementation_defined.md U20: "a model may treat a wrap as a `fault`"). Safe (log 26). -/
  | counterWrap
  /-- Raised by a frame load or store at an index past the channel's `Length`, and by a move of the DMA engine at an address
  outside every buffer the host has handed over (20_memory.md R98, R105). Safe (log 9). -/
  | outsideBuffer
  deriving DecidableEq, Repr

/-- Why a step has no meaning. -/
inductive Refusal where
  /-- An instruction whose arm has no meaning yet. Safe. -/
  | notModelled (mnemonic : String)
  /-- Raised at the channel init of a channel with `Length = 0` (41_engine_fifo.md R212, U4: the spec refuses the run). Safe. -/
  | zeroLengthChannel
  /-- Raised by `WRITE_IB` with a source that overlaps the internal buffer (40_lifecycle_buffers_queries.md R176), and at the
  start of a job one of whose receive buffers overlaps another buffer of the job (U11). Safe (log 23). -/
  | overlappingBuffers
  deriving DecidableEq, Repr

/-- The two ways a procedure ends without a next state. -/
inductive Stop where
  | fault (r : Fault)
  | refused (r : Refusal)
  deriving DecidableEq, Repr

/-- The answer of a procedure: a value, or a stop. -/
abbrev Res (α : Type) := Except Stop α

/-- Buffer memory: the bytes that differ from what an unlisted address reads as, addresses strictly rising. -/
abbrev Memory := List Host.Cell

/-- `JobState[j].Result` (10_state.md R38, R42). -/
inductive JobResult where
  | ok | pending | failed | queued
  deriving DecidableEq, Repr, Inhabited

/-- `SeqState[s].Result` (R39, R43). -/
inductive SeqResult where
  | ok | pending | failed | cancelled
  deriving DecidableEq, Repr, Inhabited

/-- `Unit[u].Status` and the driver status (R60, 30_encoding.md R138). -/
inductive Status where
  | uninit | idle | busy
  deriving DecidableEq, Repr, Inhabited

/-- `ChanState[c]` (R37). -/
structure ChanState where
  useDefault : Bool
  discardRx : Bool
  length : Nat
  txPtr : Option Word
  rxPtr : Option Word
  deriving DecidableEq, Repr, Inhabited

/-- `JobState[j]` (R38). -/
structure JobState where
  result : JobResult
  owner : Option Nat
  next : Option Nat
  deriving DecidableEq, Repr, Inhabited

/-- `SeqState[s]` (R39). -/
structure SeqState where
  result : SeqResult
  remainingJobs : Nat
  cursor : Nat
  deriving DecidableEq, Repr, Inhabited

/-- `Unit[u]`, the HW unit queue (R60): `head[p]`, `tail[p]` for `p` = 0 to 3; `maxPrio` is signed, -1 to 3 (00_scope.md R20). -/
structure UnitQ where
  status : Status
  head : List (Option Nat)
  tail : List (Option Nat)
  maxPrio : Int
  deriving DecidableEq, Repr, Inhabited

/-- `Dev[u]`, the LPSPI device state (R62, R51, R52, R57). -/
structure Dev where
  base : Word
  cmdWord : CmdWord
  asyncMode : Mode
  curJob : Option Nat
  txChanIdx : Nat
  rxChanIdx : Nat
  txRemaining : Nat
  rxRemaining : Nat
  remainingData : Nat
  receivedData : Nat
  sentFrames : Nat
  txDone : Bool
  rxDone : Bool
  contCSActive : Bool
  irqEnabled : Bool
  deriving DecidableEq, Repr, Inhabited

/-- One channel record of a sequence cache entry (R67): `chan` is the reference to `ChanState[c]`. -/
structure CacheChan where
  cmd : CmdWord
  wmTx : Nat
  wmRx : Nat
  width : Width
  chan : Nat
  deriving DecidableEq, Repr, Inhabited

/-- A sequence cache entry (R67): `jobStatus` is the reference to `JobState[Job]`. -/
structure CacheEntry where
  seq : Nat
  job : Nat
  unit : Nat
  base : Word
  clockTiming : Word
  contCS : Bool
  jobStatus : Nat
  chans : List CacheChan
  deriving DecidableEq, Repr, Inhabited

/-- One end of a DMA transfer: a byte address of buffer memory, the data registers of a unit, or one of the two named
locations outside buffer memory (30_encoding.md R153, 42_engine_dma.md R251, R254, R256). -/
inductive DmaEnd where
  | mem (addr : Nat)
  | txData (u : Nat)
  | rxData (u : Nat)
  | defaultWord (c : Nat)
  | discardWord
  deriving DecidableEq, Repr, Inhabited

/-- The DMA descriptor (30_encoding.md R153). -/
structure Tcd where
  src : DmaEnd
  dst : DmaEnd
  size : Nat
  iter : Nat
  srcInc : Nat
  dstInc : Nat
  deriving DecidableEq, Repr, Inhabited

/-- `Dma[ch]` (42_engine_dma.md R251). -/
structure DmaChan where
  tcd : Tcd
  curSrc : DmaEnd
  curDst : DmaEnd
  iterLeft : Nat
  active : Bool
  done : Bool
  deriving DecidableEq, Repr, Inhabited

/-- The peripheral of one unit (10_state.md R56, R64, R68): the registers the block drives as last written, the two FIFOs, the
module-busy flag, and what the shifter does with command words and frames (P5): `shiftCmd` the command word in force,
`shifting` the frame taken from the FIFO and not yet answered (P1, P3), `csHeld` whether chip select stays asserted after the
last frame, `wire` the frames shifted out, each with the command word it was shifted under. -/
structure Lpspi where
  ver : Word
  param : Word
  resetTxReq : Bool
  resetRxReq : Bool
  mbf : Bool
  clkcfg : Word
  wmTx : Nat
  wmRx : Nat
  txCmd : CmdWord
  cspol : Word
  txFifo : List TxItem
  rxFifo : List Word
  shiftCmd : CmdWord
  shifting : Option Word
  csHeld : Bool
  wire : List (CmdWord × Word)
  deriving DecidableEq, Repr, Inhabited

/-- A register write as the trace records it: the register and its value, a record where the spec uses one (R13, R65, R150). -/
inductive RegWrite where
  | clkcfg (v : Word)
  | fifoctrl (wmTx wmRx : Nat)
  | txcmd (c : CmdWord)
  | txdata (v : Word)
  | ctrl (resetTx resetRx : Bool)
  | cspol (v : Word)
  deriving DecidableEq, Repr

/-- A register read with the value it returned (R13, R152). -/
inductive RegRead where
  | fifostat (txCount rxCount : Nat)
  | stat (tdf rdf mbf : Bool)
  | rxdata (v : Word)
  deriving DecidableEq, Repr

/-- Notification kinds (R12, 45_scheduler.md R348). -/
inductive NotifKind where
  | jobStart | jobEnd | seqEnd
  deriving DecidableEq, Repr

/-- Error names of the development-error port (60_exceptions.md R393). -/
inductive ErrName where
  | paramChannel | paramJob | paramSeq | paramLength | paramUnit | paramConfig | paramPointer
  | uninit | seqPending | seqInProcess | alreadyInitialized | reservedCmd
  deriving DecidableEq, Repr

/-- One entry of the trace: everything the block and its DMA engine send out (00_scope.md R13, 42_engine_dma.md R251, R268,
43_polling_and_mode.md R283). -/
inductive Entry where
  | regWrite (u : Nat) (w : RegWrite)
  | regRead (u : Nat) (r : RegRead)
  | dmaBind (ch : Nat) (peripheralEnd : DmaEnd)
  | dmaCfg (ch : Nat) (tcd : Tcd)
  | dmaSetIter (ch n : Nat)
  | dmaStart (ch : Nat)
  | dmaStop (ch : Nat)
  | dmaAck (ch : Nat)
  | dmaPoll (ch : Nat) (done : Bool)
  | dmaWrite (u : Nat) (v : Word)
  | dmaRead (u : Nat) (v : Word)
  | notif (kind : NotifKind) (id : Nat)
  | irqEnable (u : Nat) (on : Bool)
  | err (op : Byte) (name : ErrName)
  | demTimeout
  | rsp (v : Word)
  deriving DecidableEq, Repr

/-- What the outside presents or an agent other than the block does: a command or an event at its port (20_memory.md R110);
`take u`: the peripheral of `u` takes a frame to shift (R68 (P1)); `shift u v`: it shifts one frame out, that one if there is one, and
`v` in (P3); `clockIn u v`: the external master of slave
`u` clocks `v` in although no frame waits (41_engine_fifo.md R222, log 15); `setBusy`: the module-busy flag changes (R379);
`dmaTx`, `dmaRx`: one move of the DMA engine (R268); `hwReset u`: the host has the peripheral of `u` reset, outside the block
(70_reset_and_hazards.md R458, log 43); `hostStore`: the host stores a byte in buffer memory (R105, log 32);
`hostConfig`: the host builds a configuration (R171, log 1). -/
inductive Stimulus where
  | port (p : PortWords)
  | take (u : Nat)
  | shift (u : Nat) (v : Word)
  | clockIn (u : Nat) (v : Word)
  | setBusy (u : Nat) (b : Bool)
  | dmaTx (u : Nat)
  | dmaRx (u : Nat)
  | hwReset (u : Nat)
  | hostStore (addr : Word) (b : Byte)
  | hostConfig (handle : Word) (c : Cfg)
  deriving DecidableEq, Repr, Inhabited

/-- One stimulus with the moment it becomes due while something runs: `some k`, after `k` further points at which it could be
taken; `none`, only when the block is at rest. At rest the next stimulus is taken at once (log 18). -/
structure Arrival where
  wait : Option Nat
  what : Stimulus
  deriving DecidableEq, Repr, Inhabited

/-- The context of a running procedure (60_exceptions.md R424, 20_memory.md R111 to R113): whether a handler runs, the units
whose handler or `IrqPoll` is running, and the cancelled sequences between `CS7` and `CS6` of their clean-up (46_cancel.md R380). -/
structure Ctx where
  handler : Bool
  units : List Nat
  cleanups : List Nat
  deriving DecidableEq, Repr

/-- The state of the machine. Plain data. -/
structure State where
  /-- the parameters (00_scope.md R9); no rule writes them -/
  params : Params
  /-- the configurations the host has built, by handle -/
  hostConfigs : List (Word × Cfg)
  /-- `Cfg`, the configuration in use (10_state.md R36) -/
  cfg : Cfg
  /-- `DrvInit` (R63) -/
  drvInit : Bool
  /-- `SyncBusyMask` (R63, R66) -/
  syncBusyMask : Word
  /-- `SeqUsedHWUnits[s]` (R63) -/
  seqUsedHWUnits : List Word
  /-- `SeqCache` (R67) -/
  seqCache : List CacheEntry
  /-- `ChanState` (R37) -/
  chan : List ChanState
  /-- `JobState` (R38) -/
  job : List JobState
  /-- `SeqState` (R39) -/
  seq : List SeqState
  /-- `Unit[0..12]` (R60) -/
  unit : List UnitQ
  /-- `Dev[0..12]` (R62) -/
  dev : List Dev
  /-- `Dma[ch]` (42_engine_dma.md R251), by channel number -/
  dma : List (Nat × DmaChan)
  /-- the discard word (R70 (d)) -/
  discardWord : Word
  /-- the peripherals of units 0 to 12 (R68) -/
  lpspi : List Lpspi
  /-- buffer memory (R70 (a)) -/
  mem : Memory
  /-- the trace so far, oldest entry first (00_scope.md R13) -/
  trace : List Entry
  /-- what the environment will present, in order (the model's own field; log 1) -/
  inputs : List Arrival
  /-- DMA completion events raised and not yet delivered (42_engine_dma.md R268) -/
  raised : List Byte
  /-- index of the next free value (the model's own field; log 12, log 13, log 30) -/
  freeCount : Nat
  deriving DecidableEq, Repr

/-- A command word before any was written. DESIGN CHOICE (R72: no value); unsafe (log 5). -/
def CmdWord.unwritten : CmdWord := { width := .w8, cpol := false, cpha := false, prescaler := 0, cont := false }

/-- The configuration before `INIT`. DESIGN CHOICE (R441: no value); unsafe (log 4). -/
def Cfg.empty : Cfg := { units := [], channels := [], jobs := [], seqs := [], seqPool := 0, chanPool := 0 }

/-- `Unit[u]` at power-on: `UNINIT` (R71); the other fields hold no value there, DESIGN CHOICE, unsafe (log 4). -/
def UnitQ.powerOn : UnitQ :=
  { status := .uninit, head := [none, none, none, none], tail := [none, none, none, none], maxPrio := -1 }

/-- `Dev[u]` at power-on: no value (R441). DESIGN CHOICE; unsafe (log 4, log 5). -/
def Dev.powerOn : Dev :=
  { base := 0, cmdWord := CmdWord.unwritten, asyncMode := .polling, curJob := none, txChanIdx := 0, rxChanIdx := 0
    txRemaining := 0, rxRemaining := 0, remainingData := 0, receivedData := 0, sentFrames := 0
    txDone := false, rxDone := false, contCSActive := false, irqEnabled := false }

/-- A peripheral at power-on: empty FIFOs and `MBF = 0` (R76); its registers' reset values are not in the spec (U19).
DESIGN CHOICE 0; unsafe (log 6, log 17). -/
def Lpspi.powerOn : Lpspi :=
  { ver := 0, param := 0, resetTxReq := false, resetRxReq := false, mbf := false, clkcfg := 0, wmTx := 0, wmRx := 0
    txCmd := CmdWord.unwritten, cspol := 0, txFifo := [], rxFifo := []
    shiftCmd := CmdWord.unwritten, shifting := none, csHeld := false, wire := [] }

/-- A DMA channel nothing has programmed: not active, not done (R76); the rest is not in the spec. DESIGN CHOICE; unsafe (log 7). -/
def DmaChan.powerOn : DmaChan :=
  { tcd := { src := .mem 0, dst := .mem 0, size := 1, iter := 0, srcInc := 0, dstInc := 0 }
    curSrc := .mem 0, curDst := .mem 0, iterLeft := 0, active := false, done := false }

/-- The offsets the LPSPI family has (20_memory.md R104). PRESUMED; no rule depends on one (log 3). -/
def RegOffsets.family : RegOffsets :=
  { ver := 0x00, param := 0x04, ctrl := 0x10, stat := 0x14, clkcfg := 0x40, fifoctrl := 0x58, fifostat := 0x5C
    txcmd := 0x60, txdata := 0x64, rxdata := 0x74 }

/-- The base-address table at reset: 13 distinct entries (00_scope.md R9: OPEN). DESIGN CHOICE; unsafe (log 3). -/
def baseTable : List Word :=
  [0x4002C000, 0x4002D000, 0x4002E000, 0x4002F000, 0x40030000, 0x40031000, 0x40032000, 0x40033000, 0x40034000, 0x40035000,
   0x40036000, 0x40037000, 0x40038000]

/-- The parameters at reset: the values 95_test_vectors.md runs with and the defaults of R9. DESIGN CHOICE (R9: OPEN); unsafe
(log 2). -/
def Params.standard : Params :=
  { level := .both, fifoSize := 4, timeoutCounter := 1000, mainFunctionPeriod := 0, concurrentSync := true, swap32 := false
    hostPreemption := true, nestedIrq := true, cancelFiresSeqEnd := false, syncFiresSeqEnd := false, devErrorDetect := true
    demConfigured := true, maxChannels := 65535, maxJobs := 65535, maxSequences := 65535
    base := baseTable, off := RegOffsets.family }

/-- The machine right after power-on (R71, R441): `DrvInit = false`, every unit `UNINIT`; every other field holds no value
there, or belongs to the environment, and has the value its log entry names. Nothing is presented and no configuration is
built. -/
def State.reset : State :=
  { params := Params.standard, hostConfigs := [], cfg := Cfg.empty, drvInit := false, syncBusyMask := 0
    seqUsedHWUnits := [], seqCache := [], chan := [], job := [], seq := []
    unit := List.replicate 13 UnitQ.powerOn, dev := List.replicate 13 Dev.powerOn
    dma := [], discardWord := 0, lpspi := List.replicate 13 Lpspi.powerOn
    mem := [], trace := [], inputs := [], raised := [], freeCount := 0 }

end Sys2Proof.Machine
end

