-- ==== Sys2Proof/Machine/Memory.lean ====
section
/-! DEFINITION. Buffer memory: one byte read and written in the canonical form, and little-endian frames built from bytes
(20_memory.md R90 to R92, R94, R95; 00_scope.md R16, R18). -/

namespace Sys2Proof

/-- The data width in bits. -/
def Width.bits : Width → Nat
  | .w8 => 8
  | .w16 => 16
  | .w32 => 32

end Sys2Proof

namespace Sys2Proof.Machine

/-- What a byte of memory that nothing has written reads as. DESIGN CHOICE 0 (R71, 40_lifecycle_buffers_queries.md R178: no
value); unsafe (log 8). -/
def unwrittenByte : Byte := 0

/-- The number of addresses of buffer memory: 32-bit byte addresses (10_state.md R70). -/
def addressCount : Nat := 0x100000000

/-- Strictly rising addresses, from `lo` up, and no entry equal to what an unlisted address reads as. -/
def Memory.wfFrom : Nat → Memory → Bool
  | _, [] => true
  | lo, (a, b) :: rest => decide (lo ≤ a) && (decide (b ≠ unwrittenByte) && Memory.wfFrom (a + 1) rest)

/-- The canonical form of buffer memory. -/
def Memory.wf (m : Memory) : Bool := Memory.wfFrom 0 m

/-- The byte at an address. -/
def readByte : Memory → Nat → Byte
  | [], _ => unwrittenByte
  | (a, b) :: rest, x => if a = x then b else readByte rest x

/-- A listed byte, or nothing when it equals what an unlisted address reads as. -/
def cellOf (x : Nat) (v : Byte) (rest : Memory) : Memory := if v = unwrittenByte then rest else (x, v) :: rest

/-- Store one byte, keeping the canonical form. -/
def writeByte : Memory → Nat → Byte → Memory
  | [], x, v => cellOf x v []
  | (a, b) :: rest, x, v =>
    if x < a then cellOf x v ((a, b) :: rest)
    else if x = a then cellOf x v rest
    else (a, b) :: writeByte rest x v

/-- `MemRead(addr, n)`: `n` bytes, the lowest address holding the least significant byte (R92; the byte order is the spec's
own choice, D7). -/
def memRead (m : Memory) : Nat → Nat → Nat
  | _, 0 => 0
  | a, n + 1 => (readByte m a).toNat + 256 * memRead m (a + 1) n

/-- `MemWrite(addr, n, v)`: the low `n` bytes of `v`, least significant byte at the lowest address (R92). -/
def memWrite : Memory → Nat → Nat → Nat → Memory
  | m, _, 0, _ => m
  | m, a, n + 1, v => memWrite (writeByte m a (BitVec.ofNat 8 v)) (a + 1) n (v / 256)

/-- `BPF(W) = W / 8` (00_scope.md R16). -/
def bpf : Width → Nat
  | .w8 => 1
  | .w16 => 2
  | .w32 => 4

/-- `trunc_W` on a 32-bit word, zero-extended back to 32 bits (R11, R18). -/
def truncW : Width → Word → Word
  | .w8, v => v &&& 0xFF
  | .w16, v => v &&& 0xFFFF
  | .w32, v => v

/-- The byte address of frame `i` of a buffer at `ptr` (R90), computed without wrap (R16). -/
def frameAddr (ptr : Word) (w : Width) (i : Nat) : Nat := ptr.toNat + i * bpf w

/-- Load `n` bytes; a byte past the address space does not exist (log 9). -/
def loadBytes (m : Memory) (a n : Nat) : Res Word :=
  if a + n ≤ addressCount then .ok (BitVec.ofNat 32 (memRead m a n)) else .error (.fault .addressOutsideMemory)

/-- Store `n` bytes; a byte past the address space does not exist (log 9). -/
def storeBytes (m : Memory) (a n : Nat) (v : Word) : Res Memory :=
  if a + n ≤ addressCount then .ok (memWrite m a n v.toNat) else .error (.fault .addressOutsideMemory)

/-- The frame-by-frame copy of `WRITE_IB` and `READ_IB`, ascending (R99): `n` frames of `b` bytes from `src` to `dst`. -/
def copyFrames (m : Memory) (b : Nat) : Nat → Nat → Nat → Res Memory
  | 0, _, _ => .ok m
  | n + 1, src, dst =>
    match loadBytes m src b with
    | .error e => .error e
    | .ok v =>
      match storeBytes m dst b v with
      | .error e => .error e
      | .ok m' => copyFrames m' b n (src + b) (dst + b)

/-- Whether the byte ranges `[a, a + m)` and `[b, b + n)` share a byte. -/
def rangesOverlap (a m b n : Nat) : Bool := decide (a < b + n) && (decide (b < a + m) && (decide (0 < m) && decide (0 < n)))

end Sys2Proof.Machine
end

