-- ==== Sys2Proof/Machine/Tables.lean ====
section
/-! DEFINITION. Reading and writing the entries of the tables (00_scope.md R12: `T[i].f`, `T[i].f <- v`; 10_state.md R40) and of
the read-only configuration. -/

namespace Sys2Proof.Machine

/-- Entry `i` of a table; an index no table has reads a default entry (never in a run from reset, log 27). -/
def tget {α : Type} [Inhabited α] (l : List α) (i : Nat) : α := l.getD i default

/-- Write entry `i` of a table; nothing outside the table. -/
def tset {α : Type} (l : List α) (i : Nat) (v : α) : List α := l.set i v

end Sys2Proof.Machine

namespace Sys2Proof

open Machine

/-- `Cfg.Channel[c]`. -/
def Cfg.channelAt (c : Cfg) (i : Nat) : ChannelCfg := tget c.channels i
/-- `Cfg.Job[j]`. -/
def Cfg.jobAt (c : Cfg) (j : Nat) : JobCfg := tget c.jobs j
/-- `Cfg.Seq[s]`. -/
def Cfg.seqAt (c : Cfg) (q : Nat) : SeqCfg := tget c.seqs q
/-- `Cfg.Unit[u]`. -/
def Cfg.unitAt (c : Cfg) (u : Nat) : UnitCfg := tget c.units u

/-- `NUM_HW_UNITS`. -/
def Cfg.numUnits (c : Cfg) : Nat := c.units.length
/-- `NUM_CHANNELS`. -/
def Cfg.numChannels (c : Cfg) : Nat := c.channels.length
/-- `NUM_JOBS`. -/
def Cfg.numJobs (c : Cfg) : Nat := c.jobs.length
/-- `NUM_SEQUENCES`. -/
def Cfg.numSeqs (c : Cfg) : Nat := c.seqs.length

/-- `BASE[u]`, which is `Cfg.Unit[u].Base` (10_state.md R34). -/
def Params.baseAt (p : Params) (u : Nat) : Word := tget p.base u

end Sys2Proof

namespace Sys2Proof.Machine

/-- `ChanState[c]`. -/
def State.chanAt (s : State) (c : Nat) : ChanState := tget s.chan c
/-- `JobState[j]`. -/
def State.jobAt (s : State) (j : Nat) : JobState := tget s.job j
/-- `SeqState[q]`. -/
def State.seqAt (s : State) (q : Nat) : SeqState := tget s.seq q
/-- `Unit[u]`. -/
def State.unitAt (s : State) (u : Nat) : UnitQ := tget s.unit u
/-- `Dev[u]`. -/
def State.devAt (s : State) (u : Nat) : Dev := tget s.dev u
/-- The peripheral of unit `u`. -/
def State.lpspiAt (s : State) (u : Nat) : Lpspi := tget s.lpspi u
/-- `SeqUsedHWUnits[q]`. -/
def State.usedUnits (s : State) (q : Nat) : Word := tget s.seqUsedHWUnits q

def State.setChan (s : State) (c : Nat) (v : ChanState) : State := { s with chan := tset s.chan c v }
def State.setJob (s : State) (j : Nat) (v : JobState) : State := { s with job := tset s.job j v }
def State.setSeq (s : State) (q : Nat) (v : SeqState) : State := { s with seq := tset s.seq q v }
def State.setUnit (s : State) (u : Nat) (v : UnitQ) : State := { s with unit := tset s.unit u v }
def State.setDev (s : State) (u : Nat) (v : Dev) : State := { s with dev := tset s.dev u v }
def State.setLpspi (s : State) (u : Nat) (v : Lpspi) : State := { s with lpspi := tset s.lpspi u v }
def State.setMem (s : State) (m : Memory) : State := { s with mem := m }

/-- `JobState[j].Result <- r`. -/
def State.setJobResult (s : State) (j : Nat) (r : JobResult) : State := s.setJob j { s.jobAt j with result := r }
/-- `JobState[j].Owner <- o`. -/
def State.setJobOwner (s : State) (j : Nat) (o : Option Nat) : State := s.setJob j { s.jobAt j with owner := o }
/-- `JobState[j].Next <- n`. -/
def State.setJobNext (s : State) (j : Nat) (n : Option Nat) : State := s.setJob j { s.jobAt j with next := n }
/-- `SeqState[q].Result <- r`. -/
def State.setSeqResult (s : State) (q : Nat) (r : SeqResult) : State := s.setSeq q { s.seqAt q with result := r }
/-- `Unit[u].Status <- st`. -/
def State.setUnitStatus (s : State) (u : Nat) (st : Status) : State := s.setUnit u { s.unitAt u with status := st }

/-- `Dma[ch]`. -/
def dmaLookup : List (Nat × DmaChan) → Nat → DmaChan
  | [], _ => DmaChan.powerOn
  | (k, d) :: rest, ch => if k = ch then d else dmaLookup rest ch

/-- `Dma[ch] <- d`. -/
def dmaStore : List (Nat × DmaChan) → Nat → DmaChan → List (Nat × DmaChan)
  | [], ch, d => [(ch, d)]
  | (k, x) :: rest, ch, d => if k = ch then (k, d) :: rest else (k, x) :: dmaStore rest ch d

def State.dmaAt (s : State) (ch : Nat) : DmaChan := dmaLookup s.dma ch
def State.setDma (s : State) (ch : Nat) (d : DmaChan) : State := { s with dma := dmaStore s.dma ch d }

/-- `NumChannels(j)`. -/
def State.numChannelsOf (s : State) (j : Nat) : Nat := (s.cfg.jobAt j).channels.length

/-- `Cfg.Job[j].Channels[k]`. -/
def State.chanOf (s : State) (j k : Nat) : Nat := tget (s.cfg.jobAt j).channels k

/-- `HWUnit` of a job. -/
def State.unitOf (s : State) (j : Nat) : Nat := (s.cfg.jobAt j).hwUnit

/-- Whether the sequence belongs to the synchronous partition (60_exceptions.md R400): the unit of its first job. -/
def State.seqIsSync (s : State) (q : Nat) : Bool := (s.cfg.unitAt (s.unitOf (tget (s.cfg.seqAt q).jobs 0))).isSync

end Sys2Proof.Machine
end

