-- ==== Sys2Proof/Machine/Flags.lean ====
section
/-! DEFINITION. The flags the block reads and how each is computed (10_state.md R56, R57, R68). -/

namespace Sys2Proof.Machine

/-- Frames in a transmit FIFO: command words between frames do not count (10_state.md R68, "fill counts"). -/
def countFrames : List TxItem → Nat
  | [] => 0
  | .cmd _ :: rest => countFrames rest
  | .frame _ :: rest => countFrames rest + 1

/-- `TxCount(u)`. -/
def Lpspi.txCount (p : Lpspi) : Nat := countFrames p.txFifo
/-- `RxCount(u)`. -/
def Lpspi.rxCount (p : Lpspi) : Nat := p.rxFifo.length
/-- `TxRoom(u) = SPI_FIFO_SIZE - TxCount(u)`. -/
def State.txRoom (s : State) (u : Nat) : Nat := s.params.fifoSize - (s.lpspiAt u).txCount
/-- `TDF` = (`TxCount` ≤ `WmTx` last written) (R68 (P4)). -/
def Lpspi.tdf (p : Lpspi) : Bool := decide (p.txCount ≤ p.wmTx)
/-- `RDF` = (`RxCount` > `WmRx` last written) (R68 (P4)). -/
def Lpspi.rdf (p : Lpspi) : Bool := decide (p.wmRx < p.rxCount)

/-- `IsLastTxChannel`: the derived value `TxChanIdx = NumChannels - 1` (R57). -/
def State.isLastTxChannel (s : State) (u j : Nat) : Bool := decide ((s.devAt u).txChanIdx + 1 = s.numChannelsOf j)

/-- The same test for the receive side (41_engine_fifo.md R225). -/
def State.isLastRxChannel (s : State) (u j : Nat) : Bool := decide ((s.devAt u).rxChanIdx + 1 = s.numChannelsOf j)

/-- The interrupt line of unit `u`: the condition under which the peripheral raises `EV_FIFO(u)` (60_exceptions.md R410):
`IrqEnabled` and (`TDF` or `RDF`). -/
def State.fifoIrqLine (s : State) (u : Nat) : Bool :=
  (s.devAt u).irqEnabled && ((s.lpspiAt u).tdf || (s.lpspiAt u).rdf)

/-- `SyncBusyMask[u] = 1` (00_scope.md R19). -/
def State.syncBusy (s : State) (u : Nat) : Bool := s.syncBusyMask.getLsbD u

/-- Whether some configured unit has status `BUSY`. -/
def State.anyUnitBusy (s : State) : Bool :=
  (List.range s.cfg.numUnits).any fun u => decide ((s.unitAt u).status = .busy)

/-- `DriverStatus()` (40_lifecycle_buffers_queries.md R186). -/
def State.driverStatus (s : State) : Status :=
  if s.drvInit then (if s.syncBusyMask ≠ 0 ∨ s.anyUnitBusy = true then .busy else .idle) else .uninit

/-- `ChannelActive(c)` (R182): some job with `c` among its channels is locked or `PENDING`. -/
def State.channelActive (s : State) (c : Nat) : Bool :=
  (List.range s.cfg.numJobs).any fun j =>
    (s.cfg.jobAt j).channels.contains c &&
      ((s.jobAt j).owner.isSome || decide ((s.jobAt j).result = .pending))

end Sys2Proof.Machine
end

