-- ==== Sys2Proof/Machine/HwWords.lean ====
section
/-! DEFINITION. One possible bit-level form of the words of the register port (30_encoding.md R150 to R152), the register
addresses (20_memory.md R104), and the numbers of results, statuses and errors (30_encoding.md R138, 60_exceptions.md R393). The
trace keeps the records; no rule depends on a layout. DESIGN CHOICE: a bit that the rules do not name is 0 in these words
(93_implementation_defined.md U19: any value); unsafe for a claim about such a bit, which no statement makes (log 42). -/

namespace Sys2Proof.Machine

/-- A Boolean as a number. -/
def bitNat (b : Bool) : Nat := if b = true then 1 else 0

/-- The transmit-command register (R150): polarity 31, phase 30, prescaler 29:27, chip select 25:24, continuous 21, continuing
command 20, frame size minus one 11:0. `pcs` is a per-device constant and `continuing` is set on a mid-job command change;
neither is in the record. -/
def txcmdBits (c : CmdWord) (pcs : BitVec 2) (continuing : Bool) : Word :=
  BitVec.ofNat 32 (bitNat c.cpol * 0x80000000 + bitNat c.cpha * 0x40000000 + c.prescaler.toNat * 0x8000000 +
    pcs.toNat * 0x1000000 + bitNat c.cont * 0x200000 + bitNat continuing * 0x100000 + (c.width.bits - 1))

/-- The FIFO-control register of a four-frame FIFO (R151): transmit watermark 1:0, receive watermark 17:16. The other bits are 0:
log 42. -/
def fifoctrlBits (wmTx wmRx : BitVec 2) : Word := BitVec.ofNat 32 (wmRx.toNat * 0x10000 + wmTx.toNat)

/-- The FIFO-status register (R152): transmit count 2:0, receive count 18:16. The other bits are 0: log 42. -/
def fifostatBits (txCount rxCount : BitVec 3) : Word := BitVec.ofNat 32 (rxCount.toNat * 0x10000 + txCount.toNat)

/-- The status register (R152): `TDF` bit 0, `RDF` bit 1, `MBF` bit 24. The other bits are 0: log 42. -/
def statBits (tdf rdf mbf : Bool) : Word := BitVec.ofNat 32 (bitNat mbf * 0x1000000 + bitNat rdf * 2 + bitNat tdf)

/-- The control register's FIFO resets (R152): transmit bit 8, receive bit 9. The other bits are 0: log 42. -/
def ctrlBits (resetTx resetRx : Bool) : Word := BitVec.ofNat 32 (bitNat resetRx * 0x200 + bitNat resetTx * 0x100)

/-- The ten registers of a unit (10_state.md R64). -/
inductive Reg where
  | ver | param | ctrl | stat | clkcfg | fifoctrl | fifostat | txcmd | txdata | rxdata
  deriving DecidableEq, Repr

/-- `OFF[reg]`. -/
def offsetOf (o : RegOffsets) : Reg → Word
  | .ver => o.ver
  | .param => o.param
  | .ctrl => o.ctrl
  | .stat => o.stat
  | .clkcfg => o.clkcfg
  | .fifoctrl => o.fifoctrl
  | .fifostat => o.fifostat
  | .txcmd => o.txcmd
  | .txdata => o.txdata
  | .rxdata => o.rxdata

/-- The address of a register: the cached base plus the offset (10_state.md R62, R70 (b)). -/
def State.regAddr (s : State) (u : Nat) (r : Reg) : Word := (s.devAt u).base + offsetOf s.params.off r

/-- Status return `E_OK` = 0 (R138). -/
def eOk : Word := 0
/-- Status return `E_NOT_OK` = 1 (R138). -/
def eNotOk : Word := 1

/-- Job result numbers (R138). -/
def jobResultCode : JobResult → Word
  | .ok => 0
  | .pending => 1
  | .failed => 2
  | .queued => 3

/-- Sequence result numbers (R138). -/
def seqResultCode : SeqResult → Word
  | .ok => 0
  | .pending => 1
  | .failed => 2
  | .cancelled => 3

/-- Unit and driver status numbers (R138). -/
def statusCode : Status → Word
  | .uninit => 0
  | .idle => 1
  | .busy => 2

/-- Error code numbers (60_exceptions.md R393). -/
def errCode : ErrName → Byte
  | .paramChannel => 0x0A
  | .paramJob => 0x0B
  | .paramSeq => 0x0C
  | .paramLength => 0x0D
  | .paramUnit => 0x0E
  | .paramConfig => 0x0F
  | .paramPointer => 0x10
  | .uninit => 0x1A
  | .seqPending => 0x2A
  | .seqInProcess => 0x3A
  | .alreadyInitialized => 0x4A
  | .reservedCmd => 0xFF

end Sys2Proof.Machine
end

