-- ==== Sys2Proof/Machine/Operands.lean ====
section
/-! DEFINITION. The operand forms of the commands: ids and their ranges, pointers, lengths (30_encoding.md R133,
60_exceptions.md R395, R396, R399, 20_memory.md R96), the frame operands of the engine (20_memory.md R94, R95), and the
overlap test of 93_implementation_defined.md U11. -/

namespace Sys2Proof.Machine

/-- `ID ≥ NUM_CHANNELS` fails (R395). -/
def State.chanInRange (s : State) (c : Nat) : Bool := decide (c < s.cfg.numChannels)
/-- `ID ≥ NUM_JOBS` fails. -/
def State.jobInRange (s : State) (j : Nat) : Bool := decide (j < s.cfg.numJobs)
/-- `ID ≥ NUM_SEQUENCES` fails. -/
def State.seqInRange (s : State) (q : Nat) : Bool := decide (q < s.cfg.numSeqs)
/-- `ID ≥ NUM_HW_UNITS` fails. -/
def State.unitInRange (s : State) (u : Nat) : Bool := decide (u < s.cfg.numUnits)

/-- A pointer operand: 0 is the null pointer (R133). -/
def pointerOf (a : Word) : Option Word := if a = 0 then none else some a

/-- `A mod B = 0` for the channel's frame size (20_memory.md R96). -/
def aligned (a : Word) (w : Width) : Bool := decide (a.toNat % bpf w = 0)

/-- A pointer operand of `SETUP_EB`: null, or a multiple of the frame size (40_lifecycle_buffers_queries.md R180). -/
def nullOrAligned (a : Word) (w : Width) : Bool := decide (a = 0) || aligned a w

/-- `SETUP_EB`'s length operand: 1 to `MaxLength` (R399). -/
def lengthOk (a2 : Word) (maxLength : Nat) : Bool := decide (0 < a2.toNat) && decide (a2.toNat ≤ maxLength)

/-- Bytes of a channel's buffer: `Length * BPF(W)` (20_memory.md R90). -/
def State.bufBytes (s : State) (c : Nat) : Nat := (s.chanAt c).length * bpf (s.cfg.channelAt c).width

/-- A count one higher, kept in 16 bits (00_scope.md R15, 10_state.md R50, R51; log 26). -/
def countUp (n : Nat) : Res Nat := if n < 65535 then .ok (n + 1) else .error (.fault .counterWrap)

/-- A count one lower: "no rule decrements a counter that is 0" (00_scope.md R15; log 26). -/
def countDown : Nat → Res Nat
  | 0 => .error (.fault .counterWrap)
  | n + 1 => .ok n

/-- `TxFrameValue(c, i)` for a channel of width `w` (20_memory.md R94); the engine touches frames 0 to `Length - 1` and no other
byte (R98). -/
def txFrameValue (s : State) (c : Nat) (w : Width) (i : Nat) : Res Word :=
  if (s.chanAt c).useDefault = true then .ok (truncW w (s.cfg.channelAt c).defaultValue)
  else
    match (s.chanAt c).txPtr with
    | none => .ok (truncW w (s.cfg.channelAt c).defaultValue)
    | some p =>
      if i < (s.chanAt c).length then loadBytes s.mem (frameAddr p w i) (bpf w) else .error (.fault .outsideBuffer)

/-- `RxStoreFrame(c, i, v)` for a channel of width `w` (20_memory.md R95, R98). -/
def rxStoreFrame (s : State) (c : Nat) (w : Width) (i : Nat) (v : Word) : Res State :=
  if (s.chanAt c).discardRx = true then .ok s
  else
    match (s.chanAt c).rxPtr with
    | none => .ok s
    | some p =>
      if i < (s.chanAt c).length then
        match storeBytes s.mem (frameAddr p w i) (bpf w) (truncW w v) with
        | .error e => .error e
        | .ok m => .ok (s.setMem m)
      else .error (.fault .outsideBuffer)

/-- A buffer in use by a job: its first byte and its size. -/
structure Span where
  start : Nat
  bytes : Nat
  deriving DecidableEq, Repr

def Span.overlaps (a b : Span) : Bool := rangesOverlap a.start a.bytes b.start b.bytes

/-- The transmit buffer a channel sends from, if it sends from one. -/
def State.txSpan (s : State) (c : Nat) : List Span :=
  if (s.chanAt c).useDefault = true then []
  else
    match (s.chanAt c).txPtr with
    | none => []
    | some p => [{ start := p.toNat, bytes := s.bufBytes c }]

/-- The receive buffer a channel keeps its frames in, if it keeps them. -/
def State.rxSpan (s : State) (c : Nat) : List Span :=
  if (s.chanAt c).discardRx = true then []
  else
    match (s.chanAt c).rxPtr with
    | none => []
    | some p => [{ start := p.toNat, bytes := s.bufBytes c }]

/-- The buffers of channel `c` that the host has handed over, by `SETUP_EB` or, for an internal channel, in the configuration
(10_state.md R37, R73; 20_memory.md R98): `Length * BPF(W)` bytes at each pointer. -/
def State.handedBy (s : State) (c : Nat) : List Span :=
  ((s.chanAt c).txPtr.toList ++ (s.chanAt c).rxPtr.toList).map fun p => { start := p.toNat, bytes := s.bufBytes c }

/-- Whether the `n` bytes from `a` lie inside a buffer the host has handed over (20_memory.md R105). -/
def State.handedOver (s : State) (a n : Nat) : Bool :=
  (List.range s.chan.length).any fun c =>
    (s.handedBy c).any fun b => decide (b.start ≤ a) && decide (a + n ≤ b.start + b.bytes)

/-- Whether some two of the spans overlap. -/
def anyOverlap : List Span → Bool
  | [] => false
  | a :: rest => rest.any a.overlaps || anyOverlap rest

/-- Whether a receive buffer of the job overlaps another buffer of the job (93_implementation_defined.md U11: the spec refuses
such a run). A channel that stands twice in the list has one pair of buffers; two transmit buffers may share bytes, since
loading a frame has no side effect (20_memory.md R94; log 23). -/
def State.buffersOverlap (s : State) (j : Nat) : Bool :=
  let cs := (s.cfg.jobAt j).channels.eraseDups
  let rx := cs.flatMap s.rxSpan
  let tx := cs.flatMap s.txSpan
  anyOverlap rx || rx.any fun a => tx.any a.overlaps

end Sys2Proof.Machine
end

