-- ==== Sys2Proof/Machine/Peripheral.lean ====
section
/-! DEFINITION. The hardware around the block: what a register write does in the peripheral, the shifter, the DMA engine's own
moves (10_state.md R68, R69; 42_engine_dma.md R268; 20_memory.md R101, R110, R111). -/

namespace Sys2Proof.Machine

/-- Append an entry to the trace (00_scope.md R13). -/
def State.emit (s : State) (e : Entry) : State := { s with trace := s.trace ++ [e] }

/-- The command words at the head of a transmit FIFO take effect; chip select falls with one that has `CONT = 0`
(R68 (P5), R226). -/
def settleFrom : List TxItem → Lpspi → Lpspi
  | .cmd c :: rest, p => settleFrom rest { p with shiftCmd := c, csHeld := p.csHeld && c.cont }
  | items, p => { p with txFifo := items }

/-- A transmit FIFO with these items: the command words at its head take effect, but behind a frame that is being shifted they
wait until it is out (R68 (P5)). -/
def Lpspi.settle (items : List TxItem) (p : Lpspi) : Lpspi :=
  if p.shifting.isSome = true then { p with txFifo := items } else settleFrom items p

/-- The items of a transmit FIFO up to its `n`th frame: no FIFO holds more than `SPI_FIFO_SIZE` frames (R68). -/
def takeFrames : Nat → List TxItem → List TxItem
  | _, [] => []
  | n, .cmd c :: rest => .cmd c :: takeFrames n rest
  | 0, .frame _ :: _ => []
  | n + 1, .frame v :: rest => .frame v :: takeFrames n rest

/-- What a register write does in the peripheral (10_state.md R64, R68 (P1), (P5), 20_memory.md R101). A `TXDATA` write that finds
no room leaves the free FIFO contents number `free`, at most a full FIFO (log 12). DESIGN CHOICE: a `CTRL` write that resets the
transmit FIFO also drops the command words still waiting in it and the frame in the shifter, and leaves the command word in force
and chip select as they are; R101 says only that the FIFOs are emptied; unsafe (log 41). -/
def Lpspi.write (fifoSize free : Nat) (p : Lpspi) : RegWrite → Lpspi
  | .clkcfg v => { p with clkcfg := v }
  | .fifoctrl t r => { p with wmTx := t, wmRx := r }
  | .txcmd c => Lpspi.settle (p.txFifo ++ [.cmd c]) { p with txCmd := c }
  | .txdata v =>
    if p.txCount < fifoSize then { p with txFifo := p.txFifo ++ [.frame v] }
    else p.settle (takeFrames fifoSize (Config.fullTxFifo free))
  | .ctrl rt rr =>
    { p with
      resetTxReq := rt
      resetRxReq := rr
      txFifo := if rt = true then [] else p.txFifo
      shifting := if rt = true then none else p.shifting
      rxFifo := if rr = true then [] else p.rxFifo }
  | .cspol v => { p with cspol := v }

/-- What a synchronous time-out leaves in the peripheral: any contents that fit its FIFOs, any frame in the shifter or none, and
any chip-select level
(93_implementation_defined.md U8, 70_reset_and_hazards.md R458; log 30). -/
def Lpspi.soil (fifoSize : Nat) (r : Residue) (p : Lpspi) : Lpspi :=
  Lpspi.settle (takeFrames fifoSize r.txItems)
    { p with shifting := r.shifting, rxFifo := r.rxFrames.take fifoSize, csHeld := r.csHeld }

/-- Whether a write uses up a free value: a `TXDATA` write that finds no room. -/
def usesFree (fifoSize : Nat) (p : Lpspi) : RegWrite → Bool
  | .txdata _ => !decide (p.txCount < fifoSize)
  | _ => false

/-- The effect of a register write on the state, without its trace entry. -/
def State.pokeReg (s : State) (u : Nat) (w : RegWrite) : State :=
  { s with
    lpspi := tset s.lpspi u (Lpspi.write s.params.fifoSize s.freeCount (s.lpspiAt u) w)
    freeCount := if usesFree s.params.fifoSize (s.lpspiAt u) w = true then s.freeCount + 1 else s.freeCount }

/-- The peripheral of unit `u` after a synchronous time-out: the free value of the state (U8; log 30). -/
def State.soilUnit (s : State) (u : Nat) : State :=
  { s with
    lpspi := tset s.lpspi u ((s.lpspiAt u).soil s.params.fifoSize (Config.timeoutResidue s.freeCount))
    freeCount := s.freeCount + 1 }

/-- The oldest received frame leaves the receive FIFO (R68 (P2)); an empty FIFO gives the free value of the state (log 13). -/
def State.popRx (s : State) (u : Nat) : Word × State :=
  match (s.lpspiAt u).rxFifo with
  | v :: rest => (v, s.setLpspi u { s.lpspiAt u with rxFifo := rest })
  | [] => (Config.emptyRxRead s.freeCount, { s with freeCount := s.freeCount + 1 })

/-- The peripheral takes its oldest frame to shift, and `TxCount` falls by one (R68 (P1)); the answer comes with `shift`, or never
(44_sync_transmit.md R307, R316). One frame at a time is shifted. -/
def Lpspi.take (p : Lpspi) : Lpspi :=
  match p.shifting, p.txFifo with
  | none, .frame x :: rest => { p with txFifo := rest, shifting := some x }
  | _, _ => p

/-- The frame in the shifter goes out, under the command word in force, and `v`, cut to that word's width, comes in (R68 (P2), (P3),
(P5): a received frame reads zero-extended). -/
def Lpspi.answer (v : Word) (p : Lpspi) : Lpspi :=
  match p.shifting with
  | none => p
  | some x =>
    settleFrom p.txFifo { p with
      shifting := none, rxFifo := p.rxFifo ++ [truncW p.shiftCmd.width v], wire := p.wire ++ [(p.shiftCmd, x)]
      csHeld := p.shiftCmd.cont }

/-- The peripheral shifts one frame out and `v` in (R68 (P3)): the frame in the shifter, else the oldest one of the FIFO. It waits
while it has no frame or no room (R407: neither underrun nor overrun; log 14). -/
def Lpspi.shift (fifoSize : Nat) (v : Word) (p : Lpspi) : Lpspi :=
  if p.rxCount < fifoSize then p.take.answer v else p

/-- The external master of a slave clocks `v` in, cut to the width in force, although no frame waits to go out (41_engine_fifo.md
R222: "more data arrived"). DESIGN CHOICE; safe (log 15). -/
def Lpspi.clockIn (fifoSize : Nat) (v : Word) (p : Lpspi) : Lpspi :=
  if p.txCount = 0 ∧ p.shifting = none ∧ p.rxCount < fifoSize then { p with rxFifo := p.rxFifo ++ [truncW p.shiftCmd.width v] } else p

/-- A hardware reset of the peripheral, outside the block: empty FIFOs and shifter, `MBF = 0` and the registers' reset values, as at power-on
(70_reset_and_hazards.md R458, R449 (b)). DESIGN CHOICE; unsafe (log 43). -/
def Lpspi.hwReset (p : Lpspi) : Lpspi := { Lpspi.powerOn with ver := p.ver, param := p.param, wire := p.wire }

/-- A running address advances by the increment; a named location does not (42_engine_dma.md R251, R268). -/
def DmaEnd.advance (e : DmaEnd) (n : Nat) : DmaEnd :=
  match e with
  | .mem a => .mem (a + n)
  | .txData u => .txData u
  | .rxData u => .rxData u
  | .defaultWord c => .defaultWord c
  | .discardWord => .discardWord

/-- The event word of a completion: kind 2 for transmit, 3 for receive (30_encoding.md R140, R141). -/
def completionEvent (kind : BitVec 4) (u : Nat) : Byte := eventWord kind (BitVec.ofNat 4 u)

/-- A move has been made: one iteration less; at 0 the channel is done and, in `INTERRUPT` mode, the completion event is raised
(42_engine_dma.md R268). -/
def State.dmaCount (s : State) (u ch : Nat) (kind : BitVec 4) : State :=
  let d := s.dmaAt ch
  if d.iterLeft = 1 then
    let s := s.setDma ch { d with iterLeft := 0, active := false, done := true }
    if (s.devAt u).asyncMode = .interrupt then { s with raised := s.raised ++ [completionEvent kind u] } else s
  else s.setDma ch { d with iterLeft := d.iterLeft - 1 }

/-- A frame that the DMA engine puts into `TXDATA` of unit `u` (R268: "counted as one TXDATA access"). -/
def dmaPut (s : State) (u ch : Nat) (v : Word) : State :=
  let s := (s.pokeReg u (.txdata v)).emit (.dmaWrite u v)
  let d := s.dmaAt ch
  (s.setDma ch { d with curSrc := d.curSrc.advance d.tcd.srcInc }).dmaCount u ch 2

/-- `DmaTxMove(u)` (R268); memory admits it only inside a buffer the host has handed over (20_memory.md R105). -/
def dmaTxMove (u : Nat) (s : State) : Res State :=
  let ch := (s.cfg.unitAt u).dmaTxCh
  let d := s.dmaAt ch
  if u < s.cfg.numUnits ∧ (s.cfg.unitAt u).dmaUsed = true ∧ d.active = true ∧ 0 < d.iterLeft ∧ 0 < s.txRoom u then
    match d.curSrc with
    | .defaultWord c => .ok (dmaPut s u ch (truncW (s.cfg.channelAt c).width (s.cfg.channelAt c).defaultValue))
    | .mem a =>
      if s.handedOver a d.tcd.size = false then .error (.fault .outsideBuffer)
      else
        match loadBytes s.mem a d.tcd.size with
        | .error e => .error e
        | .ok v => .ok (dmaPut s u ch v)
    | _ => .ok s
  else .ok s

/-- The frame size of a descriptor as a width. -/
def widthOfSize (n : Nat) : Width := if n = 1 then .w8 else if n = 2 then .w16 else .w32

/-- A frame that the DMA engine has taken from `RXDATA` and put at its destination. -/
def dmaTaken (s : State) (u ch : Nat) : State :=
  let d := s.dmaAt ch
  (s.setDma ch { d with curDst := d.curDst.advance d.tcd.dstInc }).dmaCount u ch 3

/-- `DmaRxMove(u)` (R268; 20_memory.md R105). DESIGN CHOICE: a frame sent to the discard word replaces all 32 bits of it, zero-extended,
whatever the transfer size; nothing reads it (10_state.md R70 (d)); unsafe for a claim about its value (log 29). -/
def dmaRxMove (u : Nat) (s : State) : Res State :=
  let ch := (s.cfg.unitAt u).dmaRxCh
  let d := s.dmaAt ch
  if u < s.cfg.numUnits ∧ (s.cfg.unitAt u).dmaUsed = true ∧ d.active = true ∧ 0 < d.iterLeft ∧ 0 < (s.lpspiAt u).rxCount then
    match d.curDst with
    | .discardWord =>
      let (v, s) := s.popRx u
      .ok (dmaTaken { s.emit (.dmaRead u v) with discardWord := truncW (widthOfSize d.tcd.size) v } u ch)
    | .mem a =>
      if s.handedOver a d.tcd.size = false then .error (.fault .outsideBuffer)
      else
        let (v, s) := s.popRx u
        match storeBytes s.mem a d.tcd.size (truncW (widthOfSize d.tcd.size) v) with
        | .error e => .error e
        | .ok m => .ok (dmaTaken ((s.emit (.dmaRead u v)).setMem m) u ch)
    | _ => .ok s
  else .ok s

/-- Whether a stimulus is a move of other hardware, which may come between any two register accesses (20_memory.md R111). -/
def Stimulus.isAgent : Stimulus → Bool
  | .port _ => false
  | .take _ => true
  | .shift _ _ => true
  | .clockIn _ _ => true
  | .setBusy _ _ => true
  | .dmaTx _ => true
  | .dmaRx _ => true
  | .hwReset _ => false
  | .hostStore _ _ => false
  | .hostConfig _ _ => false

/-- The host stores one byte into buffer memory (20_memory.md R98, R105; log 32). -/
def hostStore (a : Word) (b : Byte) (s : State) : State := s.setMem (writeByte s.mem a.toNat b)

/-- The host builds a configuration at a handle, replacing one it built there before (R171, R448; log 1, log 31). -/
def hostBuild (h : Word) (c : Cfg) (s : State) : State :=
  { s with hostConfigs := (h, c) :: s.hostConfigs.filter fun e => decide (e.1 ≠ h) }

/-- A stimulus that is not presented at a port. -/
def agentMove (x : Stimulus) (s : State) : Res State :=
  match x with
  | .port _ => .ok s
  | .take u => .ok (s.setLpspi u (s.lpspiAt u).take)
  | .shift u v => .ok (s.setLpspi u ((s.lpspiAt u).shift s.params.fifoSize v))
  | .clockIn u v =>
    if (s.cfg.unitAt u).slave = true ∧ (s.cfg.unitAt u).dmaUsed = false then
      .ok (s.setLpspi u ((s.lpspiAt u).clockIn s.params.fifoSize v))
    else .ok s
  | .setBusy u b => .ok (s.setLpspi u { s.lpspiAt u with mbf := b })
  | .dmaTx u => dmaTxMove u s
  | .dmaRx u => dmaRxMove u s
  | .hwReset u => .ok (s.setLpspi u (s.lpspiAt u).hwReset)
  | .hostStore a b => .ok (hostStore a b s)
  | .hostConfig h c => .ok (hostBuild h c s)

/-- Go through the waiting stimuli up to the first that is neither due-and-admissible nor held back by the context: the
chosen one, if any, and what is left. One that the context holds back waits at its port and lets later ones pass; one that
is not yet due comes one point closer; one for the block at rest lets nothing pass (log 18). -/
def pick (admissible : Stimulus → Bool) : List Arrival → Option Stimulus × List Arrival
  | [] => (none, [])
  | a :: rest =>
    match a.wait with
    | none => (none, a :: rest)
    | some (k + 1) => (none, { a with wait := some k } :: rest)
    | some 0 =>
      if admissible a.what = true then (some a.what, rest)
      else
        match pick admissible rest with
        | (x, rest') => (x, a :: rest')

/-- Between two register accesses of a segment: the moves of other hardware that are due (20_memory.md R111). `fuel` is the number
of waiting stimuli. -/
def agentMoves : Nat → State → Res State
  | 0, s => .ok s
  | fuel + 1, s =>
    match pick Stimulus.isAgent s.inputs with
    | (none, rest) => .ok { s with inputs := rest }
    | (some x, rest) =>
      match agentMove x { s with inputs := rest } with
      | .error e => .error e
      | .ok s' => agentMoves fuel s'

/-- The point before a register access. -/
def agentPoint (s : State) : Res State := agentMoves s.inputs.length s

end Sys2Proof.Machine
end

