-- ==== Sys2Proof/Machine/Ops.lean ====
section
/-! DEFINITION. The named operations every procedure is made of: register accesses and DMA control actions with their trace
entries (00_scope.md R12, R13; 20_memory.md R100 to R102; 42_engine_dma.md R251), the interrupt enable (41_engine_fifo.md R218),
notifications, and what the block has in place of an exception: reporting an error and responding (60_exceptions.md R390, R391,
R405, R414, R415: no saved state, no vector, no return). -/

namespace Sys2Proof.Machine

/-- What may run between two atomic segments (20_memory.md R110 to R113), given the context of the procedure that has just ended a
segment. -/
abbrev Boundary := Ctx → State → Res State

/-- The context of a command that nothing interrupts (60_exceptions.md R424). -/
def Ctx.foreground : Ctx := { handler := false, units := [], cleanups := [] }

/-- The context of a handler for unit `u` started in context `ctx` (R424). -/
def Ctx.enterHandler (ctx : Ctx) (u : Nat) : Ctx := { ctx with handler := true, units := u :: ctx.units }

/-- The context of `IrqPoll(u)` called in context `ctx` (20_memory.md R113). -/
def Ctx.enterPoll (ctx : Ctx) (u : Nat) : Ctx := { ctx with units := u :: ctx.units }

/-- The context from `CS7` to `CS6` of sequence `q` if it was found cancelled (45_scheduler.md R345, 46_cancel.md R374, R380). -/
def Ctx.enterCleanup (ctx : Ctx) (cancelled : Bool) (q : Nat) : Ctx :=
  if cancelled = true then { ctx with cleanups := q :: ctx.cleanups } else ctx

/-- `RegWrite(u, R, v)` (00_scope.md R12). -/
def regWrite (u : Nat) (w : RegWrite) (s : State) : Res State :=
  match agentPoint s with
  | .error e => .error e
  | .ok m => .ok ((m.pokeReg u w).emit (.regWrite u w))

/-- `RegRead(u, FIFOSTAT)`: `(TxCount, RxCount)` (30_encoding.md R152). -/
def readFifoStat (u : Nat) (s : State) : Res ((Nat × Nat) × State) :=
  match agentPoint s with
  | .error e => .error e
  | .ok m =>
    .ok (((m.lpspiAt u).txCount, (m.lpspiAt u).rxCount),
      m.emit (.regRead u (.fifostat (m.lpspiAt u).txCount (m.lpspiAt u).rxCount)))

/-- What a read of `STAT` returns: `TDF`, `RDF`, `MBF` (R152). -/
structure StatWord where
  tdf : Bool
  rdf : Bool
  mbf : Bool
  deriving DecidableEq, Repr

/-- `RegRead(u, STAT)`. -/
def readStat (u : Nat) (s : State) : Res (StatWord × State) :=
  match agentPoint s with
  | .error e => .error e
  | .ok m =>
    let w : StatWord := { tdf := (m.lpspiAt u).tdf, rdf := (m.lpspiAt u).rdf, mbf := (m.lpspiAt u).mbf }
    .ok (w, m.emit (.regRead u (.stat w.tdf w.rdf w.mbf)))

/-- `RegRead(u, RXDATA)`: the read removes the frame (20_memory.md R101). -/
def readRxData (u : Nat) (s : State) : Res (Word × State) :=
  match agentPoint s with
  | .error e => .error e
  | .ok m => .ok ((m.popRx u).1, (m.popRx u).2.emit (.regRead u (.rxdata (m.popRx u).1)))

/-- `DmaBind(ch, Dst = TXDATA of u, DstInc = 0)` (42_engine_dma.md R251). -/
def dmaBindTx (ch u : Nat) (s : State) : State :=
  let d := s.dmaAt ch
  (s.setDma ch { d with tcd := { d.tcd with dst := .txData u, dstInc := 0 }, active := false, done := false }).emit
    (.dmaBind ch (.txData u))

/-- `DmaBind(ch, Src = RXDATA of u, SrcInc = 0)` (R251). -/
def dmaBindRx (ch u : Nat) (s : State) : State :=
  let d := s.dmaAt ch
  (s.setDma ch { d with tcd := { d.tcd with src := .rxData u, srcInc := 0 }, active := false, done := false }).emit
    (.dmaBind ch (.rxData u))

/-- `DmaCfg(ch, tcd)` (R251). -/
def dmaCfg (ch : Nat) (t : Tcd) (s : State) : State :=
  (s.setDma ch { s.dmaAt ch with tcd := t, curSrc := t.src, curDst := t.dst, iterLeft := t.iter }).emit (.dmaCfg ch t)

/-- `DmaSetIter(ch, n)`: the running addresses stay (R251). -/
def dmaSetIter (ch n : Nat) (s : State) : State :=
  (s.setDma ch { s.dmaAt ch with iterLeft := n }).emit (.dmaSetIter ch n)

/-- `DmaStart(ch)` (R251). -/
def dmaStart (ch : Nat) (s : State) : State :=
  (s.setDma ch { s.dmaAt ch with done := false, active := true }).emit (.dmaStart ch)

/-- `DmaStop(ch)` (R251). -/
def dmaStop (ch : Nat) (s : State) : State :=
  (s.setDma ch { s.dmaAt ch with active := false, done := false }).emit (.dmaStop ch)

/-- `DmaAck(ch)` (R251). -/
def dmaAck (ch : Nat) (s : State) : State :=
  (s.setDma ch { s.dmaAt ch with done := false }).emit (.dmaAck ch)

/-- The read of a `Done` flag by `IrqPoll`, a trace entry (43_polling_and_mode.md R283). -/
def dmaPoll (ch : Nat) (s : State) : Bool × State := ((s.dmaAt ch).done, s.emit (.dmaPoll ch (s.dmaAt ch).done))

/-- `IrqOn(u)` (41_engine_fifo.md R218). -/
def irqOn (u : Nat) (s : State) : State :=
  (s.setDev u { s.devAt u with irqEnabled := true }).emit (.irqEnable u true)

/-- `IrqOff(u)`: nothing when the interrupt is not enabled (R218). -/
def irqOff (u : Nat) (s : State) : State :=
  if (s.devAt u).irqEnabled = true then (s.setDev u { s.devAt u with irqEnabled := false }).emit (.irqEnable u false) else s

/-- `if present then emit Notif(kind, id)` (00_scope.md R12). -/
def notify (present : Bool) (kind : NotifKind) (id : Nat) (s : State) : State :=
  if present = true then s.emit (.notif kind id) else s

/-- `raise E` in the command of opcode `op` (60_exceptions.md R391): the report, when the build has the sink; no state of the
block is written. -/
def raise (op : Byte) (e : ErrName) (s : State) : State :=
  if s.params.devErrorDetect = true then s.emit (.err op e) else s

/-- `return v`: the response word (30_encoding.md R132). -/
def respond (v : Word) (s : State) : State := s.emit (.rsp v)

/-- `raise E; return v`: all that an error does (R390, R391). -/
def fail (op : Byte) (e : ErrName) (v : Word) (s : State) : State := respond v (raise op e s)

/-- `report Dem(SPI_DEM_TIMEOUT)` (60_exceptions.md R405). -/
def reportDemTimeout (s : State) : State := if s.params.demConfigured = true then s.emit .demTimeout else s

/-- A reserved command word (30_encoding.md R145), also a command that the built variant lacks (00_scope.md R8). -/
def reservedCommand (op : Byte) (s : State) : State := fail op .reservedCmd eNotOk s

/-- Whether the built variant has the asynchronous commands and the events (R8). -/
def State.hasAsync (s : State) : Bool := decide (s.params.level ≠ .syncOnly)

/-- Whether the built variant has `SYNC_TRANSMIT` (R8). -/
def State.hasSync (s : State) : Bool := decide (s.params.level ≠ .asyncOnly)

/-- `repeat n times`. -/
def repeatN (f : State → Res State) : Nat → State → Res State
  | 0, s => .ok s
  | n + 1, s =>
    match f s with
    | .error e => .error e
    | .ok s' => repeatN f n s'

/-- The outcome of an instruction from the answer of its procedure. -/
def outcome : Res State → Host.Outcome State Fault Refusal
  | .ok s => .next s
  | .error (.fault r) => .fault r
  | .error (.refused r) => .refused r

end Sys2Proof.Machine
end

