-- ==== Sys2Proof/Machine/Buffers.lean ====
section
/-! DEFINITION. The buffer commands (40_lifecycle_buffers_queries.md R176 to R182). Each is one segment. -/

namespace Sys2Proof.Machine

/-- The width of channel `c`. -/
def State.widthOf (s : State) (c : Nat) : Width := (s.cfg.channelAt c).width

/-- `WRITE_IB` from a source that is not null and passed its checks (R176). -/
def fillInternal (c : Nat) (a0 : Word) (s : State) : Res State :=
  let dst := (s.cfg.channelAt c).ibTxAddr
  if rangesOverlap a0.toNat (s.bufBytes c) dst.toNat (s.bufBytes c) = true then .error (.refused .overlappingBuffers)
  else
    match copyFrames s.mem (bpf (s.widthOf c)) (s.chanAt c).length a0.toNat dst.toNat with
    | .error e => .error e
    | .ok m => .ok ((s.setMem m).setChan c { s.chanAt c with useDefault := false })

/-- `WRITE_IB` (R176). -/
def cmdWriteIb (c : Nat) (a0 : Word) (s : State) : Res State :=
  if s.drvInit = false then .ok (fail 0x03 .uninit eNotOk s)
  else if s.chanInRange c = false then .ok (fail 0x03 .paramChannel eNotOk s)
  else if (s.cfg.channelAt c).bufKind ≠ .ib then .ok (fail 0x03 .paramChannel eNotOk s)
  else if s.channelActive c = true then .ok (respond eNotOk s)
  else if a0 = 0 then .ok (respond eOk (s.setChan c { s.chanAt c with useDefault := true }))
  else if aligned a0 (s.widthOf c) = false then .ok (fail 0x03 .paramPointer eNotOk s)
  else do
    let s ← fillInternal c a0 s
    .ok (respond eOk s)

/-- `READ_IB` (R178). -/
def cmdReadIb (c : Nat) (a0 : Word) (s : State) : Res State :=
  if s.drvInit = false then .ok (fail 0x04 .uninit eNotOk s)
  else if s.chanInRange c = false then .ok (fail 0x04 .paramChannel eNotOk s)
  else if (s.cfg.channelAt c).bufKind ≠ .ib then .ok (fail 0x04 .paramChannel eNotOk s)
  else if a0 = 0 ∨ aligned a0 (s.widthOf c) = false then .ok (fail 0x04 .paramPointer eNotOk s)
  else
    match copyFrames s.mem (bpf (s.widthOf c)) (s.chanAt c).length (s.cfg.channelAt c).ibRxAddr.toNat a0.toNat with
    | .error e => .error e
    | .ok m => .ok (respond eOk (s.setMem m))

/-- `ChanState[c]` after an accepted `SETUP_EB` (R180). -/
def externalBuffers (a0 a1 a2 : Word) : ChanState :=
  { txPtr := pointerOf a0, useDefault := decide (a0 = 0), rxPtr := pointerOf a1, discardRx := decide (a1 = 0)
    length := a2.toNat }

/-- `SETUP_EB` (R180). -/
def cmdSetupEb (c : Nat) (a0 a1 a2 : Word) (s : State) : Res State :=
  if s.drvInit = false then .ok (fail 0x05 .uninit eNotOk s)
  else if s.chanInRange c = false then .ok (fail 0x05 .paramChannel eNotOk s)
  else if (s.cfg.channelAt c).bufKind ≠ .eb then .ok (fail 0x05 .paramChannel eNotOk s)
  else if lengthOk a2 (s.cfg.channelAt c).maxLength = false then .ok (fail 0x05 .paramLength eNotOk s)
  else if (nullOrAligned a0 (s.widthOf c) && nullOrAligned a1 (s.widthOf c)) = false then
    .ok (fail 0x05 .paramPointer eNotOk s)
  else if s.channelActive c = true then .ok (respond eNotOk s)
  else .ok (respond eOk (s.setChan c (externalBuffers a0 a1 a2)))

end Sys2Proof.Machine
end

