-- ==== Sys2Proof/Machine/FifoEngine.lean ====
section
/-! DEFINITION. The transfer engine's FIFO path: channel initialisation with the watermark controller and the command word, one
frame each way, channel completion with the chip-select hold logic, the start of a FIFO job (41_engine_fifo.md R213 to R218,
R223 to R226). -/

namespace Sys2Proof.Machine

/-- The job in flight on a unit; there is one wherever the engine runs (R212; log 25). -/
def currentJob (u : Nat) (s : State) : Res Nat :=
  match (s.devAt u).curJob with
  | none => .error (.fault .noCurrentJob)
  | some j => .ok j

/-- `ChanCmd(j, c, cont)` (10_state.md R65). -/
def chanCmd (cfg : Cfg) (j c : Nat) (cont : Bool) : CmdWord :=
  { width := (cfg.channelAt c).width, cpol := (cfg.jobAt j).dev.cpol, cpha := (cfg.jobAt j).dev.cpha
    prescaler := (cfg.jobAt j).dev.prescaler, cont := cont }

/-- `RegWrite(u, TXCMD, cmd); Dev[u].CmdWord <- cmd` (R214). -/
def writeCmd (u : Nat) (cmd : CmdWord) (s : State) : Res State := do
  let s ← regWrite u (.txcmd cmd) s
  .ok (s.setDev u { s.devAt u with cmdWord := cmd })

/-- The part of R214 from `if first`: on a job's first channel the watermark pair and the command word with the requested
continuous-CS bit; on a later one the command word, with the bit as it stands, if it differs from the one last written.
`cmdOf` is the channel's command word as a function of the bit. -/
def programChannel (u : Nat) (first : Bool) (wmTx wmRx : Nat) (cmdOf : Bool → CmdWord) (contCS : Bool) (s : State) : Res State :=
  if first = true then do
    let s ← regWrite u (.fifoctrl wmTx wmRx) s
    let s ← writeCmd u (cmdOf contCS) s
    .ok (s.setDev u { s.devAt u with contCSActive := contCS })
  else
    let cmd := cmdOf (s.devAt u).contCSActive
    if cmd = (s.devAt u).cmdWord then .ok s else writeCmd u cmd s

/-- `programChannel` for channel `c` of job `j`. -/
def programJobChannel (u : Nat) (first : Bool) (j c : Nat) (s : State) : Res State :=
  programChannel u first (s.cfg.channelAt c).wmTx (s.cfg.channelAt c).wmRx (chanCmd s.cfg j c) (s.cfg.jobAt j).dev.contCS s

/-- The transmit counters of a channel that starts (R214). -/
def loadTxCounters (u c : Nat) (s : State) : State :=
  s.setDev u { s.devAt u with txRemaining := (s.chanAt c).length, sentFrames := 0 }

/-- `TxChannelInit(u, first)` (R214). -/
def txChannelInit (u : Nat) (first : Bool) (s : State) : Res State := do
  let j ← currentJob u s
  let c := s.chanOf j (s.devAt u).txChanIdx
  if (s.chanAt c).length = 0 then .error (.refused .zeroLengthChannel)
  else programJobChannel u first j c (loadTxCounters u c s)

/-- `RxRemaining` of channel `c`, refusing a channel of no frames (R216). -/
def loadRxCounter (u c : Nat) (s : State) : Res State :=
  if (s.chanAt c).length = 0 then .error (.refused .zeroLengthChannel)
  else .ok (s.setDev u { s.devAt u with rxRemaining := (s.chanAt c).length })

/-- `RxChannelInit(u)` (R216). -/
def rxChannelInit (u : Nat) (s : State) : Res State := do
  let j ← currentJob u s
  loadRxCounter u (s.chanOf j (s.devAt u).rxChanIdx) s

/-- The chip-select clear (R224, R226): the command word once more with `CONT = false`, if the bit is set. -/
def clearContCS (u : Nat) (s : State) : Res State :=
  if (s.devAt u).contCSActive = true then do
    let s ← writeCmd u { (s.devAt u).cmdWord with cont := false } s
    .ok (s.setDev u { s.devAt u with contCSActive := false })
  else .ok s

/-- `TxChannelComplete(u)` (R224). -/
def txChannelComplete (u : Nat) (s : State) : Res State := do
  let j ← currentJob u s
  if s.isLastTxChannel u j = true then
    let s ← clearContCS u s
    .ok (s.setDev u { s.devAt u with txDone := true })
  else
    let k ← countUp (s.devAt u).txChanIdx
    txChannelInit u false (s.setDev u { s.devAt u with txChanIdx := k })

/-- `RxChannelComplete(u)` (R225). -/
def rxChannelComplete (u : Nat) (s : State) : Res State := do
  let j ← currentJob u s
  if s.isLastRxChannel u j = true then .ok (s.setDev u { s.devAt u with rxDone := true })
  else
    let k ← countUp (s.devAt u).rxChanIdx
    rxChannelInit u (s.setDev u { s.devAt u with rxChanIdx := k })

/-- One frame of channel `c` into `TXDATA`, and the counters (R217, 44_sync_transmit.md R306). The frame's index is
`Length - TxRemaining`. -/
def sendFrame (u c : Nat) (w : Width) (s : State) : Res State := do
  let left ← countDown (s.devAt u).txRemaining
  let sent ← countUp (s.devAt u).sentFrames
  let v ← txFrameValue s c w ((s.chanAt c).length - (s.devAt u).txRemaining)
  let s ← regWrite u (.txdata v) s
  .ok (s.setDev u { s.devAt u with txRemaining := left, sentFrames := sent })

/-- One frame of channel `c` from `RXDATA`, and the counter (R223, R306). -/
def receiveFrame (u c : Nat) (w : Width) (s : State) : Res State := do
  let left ← countDown (s.devAt u).rxRemaining
  let i := (s.chanAt c).length - (s.devAt u).rxRemaining
  let (v, s) ← readRxData u s
  let s ← rxStoreFrame s c w i v
  .ok (s.setDev u { s.devAt u with rxRemaining := left })

/-- `TxWriteFrame(u)` (R217). -/
def txWriteFrame (u : Nat) (s : State) : Res State := do
  let j ← currentJob u s
  let c := s.chanOf j (s.devAt u).txChanIdx
  let s ← sendFrame u c (s.cfg.channelAt c).width s
  if (s.devAt u).txRemaining = 0 then txChannelComplete u s else .ok s

/-- `RxReadFrame(u)` (R223). -/
def rxReadFrame (u : Nat) (s : State) : Res State := do
  let j ← currentJob u s
  let c := s.chanOf j (s.devAt u).rxChanIdx
  let s ← receiveFrame u c (s.cfg.channelAt c).width s
  if (s.devAt u).rxRemaining = 0 then rxChannelComplete u s else .ok s

/-- How many frames a job start puts out (R213): one on a master, what fits and the first channel has on a slave. -/
def primeCount (u : Nat) (s : State) : Nat :=
  if (s.cfg.unitAt u).slave = true then min (s.devAt u).txRemaining s.params.fifoSize else 1

/-- `FifoJobStart(u)` (R213). -/
def fifoJobStart (u : Nat) (s : State) : Res State := do
  let s ← txChannelInit u true s
  let s ← rxChannelInit u s
  let s ← repeatN (txWriteFrame u) (primeCount u s) s
  .ok (if (s.devAt u).asyncMode = .interrupt then irqOn u s else s)

end Sys2Proof.Machine
end

