-- ==== Sys2Proof/Machine/DmaEngine.lean ====
section
/-! DEFINITION. The transfer engine's DMA path: descriptor loads of at most 511 iterations and the start of a DMA job
(42_engine_dma.md R250, R252 to R256; 00_scope.md R17). -/

namespace Sys2Proof.Machine

/-- `LPSPI_DMA_MAX_LINKED_ITER_CNT` = 511 (00_scope.md R9, 90_conflicts.md C1). -/
def dmaMaxIter : Nat := 511

/-- `Chunk(n) = min(n, 511)` (R17, R253). -/
def chunk (n : Nat) : Nat := min n dmaMaxIter

/-- Where the transmit descriptor of a channel reads from, and by how much it advances (R254; a channel without a transmit pointer
sends its default value, 20_memory.md R94, log 24). -/
def txSource (s : State) (c : Nat) : DmaEnd × Nat :=
  if (s.chanAt c).useDefault = true then (.defaultWord c, 0)
  else
    match (s.chanAt c).txPtr with
    | none => (.defaultWord c, 0)
    | some p => (.mem p.toNat, bpf (s.cfg.channelAt c).width)

/-- Where the receive descriptor of a channel stores, and by how much it advances (R256). -/
def rxDestination (s : State) (c : Nat) : DmaEnd × Nat :=
  if (s.chanAt c).discardRx = true then (.discardWord, 0)
  else
    match (s.chanAt c).rxPtr with
    | none => (.discardWord, 0)
    | some p => (.mem p.toNat, bpf (s.cfg.channelAt c).width)

/-- The transmit descriptor of the first load of a channel (R254). -/
def txTcd (s : State) (u c : Nat) : Tcd :=
  { src := (txSource s c).1, dst := .txData u, size := bpf (s.cfg.channelAt c).width, iter := chunk (s.chanAt c).length
    srcInc := (txSource s c).2, dstInc := 0 }

/-- The receive descriptor of the first load of a channel (R256). -/
def rxTcd (s : State) (u c : Nat) : Tcd :=
  { src := .rxData u, dst := (rxDestination s c).1, size := bpf (s.cfg.channelAt c).width, iter := chunk (s.chanAt c).length
    srcInc := 0, dstInc := (rxDestination s c).2 }

/-- `TxDmaChannelInit(u, first)` (R254). -/
def txDmaChannelInit (u : Nat) (first : Bool) (s : State) : Res State := do
  let j ← currentJob u s
  let c := s.chanOf j (s.devAt u).txChanIdx
  if (s.chanAt c).length = 0 then .error (.refused .zeroLengthChannel)
  else
    let total := (s.chanAt c).length
    let s := s.setDev u { s.devAt u with remainingData := total - chunk total, sentFrames := 0 }
    let s ← programJobChannel u first j c s
    let ch := (s.cfg.unitAt u).dmaTxCh
    .ok (dmaStart ch (dmaCfg ch (txTcd s u c) s))

/-- `RxDmaChannelInit(u)` (R256). -/
def rxDmaChannelInit (u : Nat) (s : State) : Res State := do
  let j ← currentJob u s
  let c := s.chanOf j (s.devAt u).rxChanIdx
  if (s.chanAt c).length = 0 then .error (.refused .zeroLengthChannel)
  else
    let total := (s.chanAt c).length
    let s := s.setDev u { s.devAt u with receivedData := total - chunk total }
    let ch := (s.cfg.unitAt u).dmaRxCh
    .ok (dmaStart ch (dmaCfg ch (rxTcd s u c) s))

/-- `DmaJobStart(u)`: the receiver is armed first (R252). -/
def dmaJobStart (u : Nat) (s : State) : Res State := do
  let s ← rxDmaChannelInit u s
  txDmaChannelInit u true s

end Sys2Proof.Machine
end

