-- ==== Sys2Proof/Machine/Scheduler.lean ====
section
/-! DEFINITION. The start of a job (41_engine_fifo.md R211), job locking, the priority arbiter, job completion and the cancel
clean-up (45_scheduler.md R331 to R346, 46_cancel.md R374, R375, 41_engine_fifo.md R236). A call of the boundary `b` stands before
each `-- segment` line of the rules but a procedure's caller's first. -/

namespace Sys2Proof.Machine

/-- The job's start in `Dev[u]` (R211). -/
def enterJob (u j : Nat) (s : State) : State :=
  s.setDev u { s.devAt u with
    curJob := some j, txChanIdx := 0, rxChanIdx := 0, txDone := false, rxDone := false, contCSActive := false }

/-- The segment `jobstart` of `JobTransfer(j)` (R211); a job with overlapping buffers is refused (93_implementation_defined.md
U11). -/
def jobStart (j : Nat) (s : State) : Res State :=
  if s.buffersOverlap j = true then .error (.refused .overlappingBuffers)
  else do
    let u := s.unitOf j
    let s ← regWrite u (.clkcfg (s.cfg.jobAt j).dev.clockTiming) (notify (s.cfg.jobAt j).startNotif .jobStart j s)
    let s := enterJob u j s
    if (s.cfg.unitAt u).dmaUsed = true then dmaJobStart u s else fifoJobStart u s

/-- `JobTransfer(j)` (R211). -/
def jobTransfer (b : Boundary) (ctx : Ctx) (j : Nat) (s : State) : Res State := do
  let s ← b ctx s
  jobStart j s

/-- `Owner <- None` for the jobs of a list. -/
def unlockAll : List Nat → State → State
  | [], s => s
  | j :: rest, s => unlockAll rest (s.setJobOwner j none)

/-- The loop of `LockJobs` (45_scheduler.md R331): `locked` are the jobs this attempt has locked, released when a job is found
locked (R333). -/
def lockFrom (q : Nat) (locked : List Nat) : List Nat → State → Bool × State
  | [], s => (true, s)
  | j :: rest, s =>
    if (s.jobAt j).owner.isSome = true then (false, unlockAll locked s)
    else lockFrom q (locked ++ [j]) rest (s.setJobOwner j (some q))

/-- `LockJobs(q)` (R331), with the single-compare path of R332. -/
def lockJobs (q : Nat) (s : State) : Bool × State :=
  if (s.seqAt q).result = .pending then (false, s)
  else
    match (s.cfg.seqAt q).jobs with
    | [j] => if (s.jobAt j).owner.isSome = true then (false, s) else (true, s.setJobOwner j (some q))
    | js => lockFrom q [] js s

/-- The list of level `p`: its head. -/
def UnitQ.headAt (q : UnitQ) (p : Nat) : Option Nat := tget q.head p
/-- The list of level `p`: its tail. -/
def UnitQ.tailAt (q : UnitQ) (p : Nat) : Option Nat := tget q.tail p

/-- The append of `CS3` (45_scheduler.md R340): `j` at the tail of its level's list, `MaxPrio` promoted. -/
def enqueue (j : Nat) (s : State) : State :=
  let u := s.unitOf j
  let p := (s.cfg.jobAt j).priority
  let q := s.unitAt u
  let s := s.setJobNext j none
  let s := match q.tailAt p with
    | none => s
    | some t => s.setJobNext t (some j)
  s.setUnit u { q with
    head := if q.tailAt p = none then tset q.head p (some j) else q.head
    tail := tset q.tail p (some j)
    maxPrio := if q.maxPrio < (p : Int) then (p : Int) else q.maxPrio }

/-- The segment `CS3` (R340): claim an idle unit, or append. -/
def claimOrEnqueue (j : Nat) (s : State) : Bool × State :=
  if (s.unitAt (s.unitOf j)).status = .idle then
    (true, (s.setUnitStatus (s.unitOf j) .busy).setJobResult j .pending)
  else (false, enqueue j s)

/-- `ScheduleJob(j)` (R340). -/
def scheduleJob (b : Boundary) (ctx : Ctx) (j : Nat) (s : State) : Res State := do
  let s ← b ctx s
  match claimOrEnqueue j s with
  | (true, s) => jobTransfer b ctx j s
  | (false, s) => .ok s

/-- The highest level at or below `p - 1` whose list is not empty, or -1 (the loop at the end of `CS4`, 45_scheduler.md R342). -/
def topLevel (head : List (Option Nat)) : Nat → Int
  | 0 => -1
  | p + 1 => if (tget head p).isSome = true then (p : Int) else topLevel head p

/-- The segment `CS4` (R342): the head of the highest list, or the unit idle. -/
def popNext (u : Nat) (s : State) : Res (Option Nat × State) :=
  let q := s.unitAt u
  if q.maxPrio < 0 then .ok (none, s.setUnitStatus u .idle)
  else
    match q.headAt q.maxPrio.toNat with
    | none => .error (.fault .emptyPriorityList)
    | some j =>
      let p := q.maxPrio.toNat
      let after := (s.jobAt j).next
      let head := tset q.head p after
      let s := s.setUnit u { q with
        head := head
        tail := if after = none then tset q.tail p none else q.tail
        maxPrio := topLevel head (p + 1) }
      .ok (some j, (s.setJobNext j none).setJobResult j .pending)

/-- `ScheduleNextJob(u)` (R342). -/
def scheduleNextJob (b : Boundary) (ctx : Ctx) (u : Nat) (s : State) : Res State := do
  let s ← b ctx s
  let (next, s) ← popNext u s
  match next with
  | none => .ok s
  | some j => jobTransfer b ctx j s

/-- `UnlockRemainingJobs(q)`: the jobs of `q` still owned by `q` (46_cancel.md R375). -/
def unlockRemaining (q : Nat) : List Nat → State → State
  | [], s => s
  | j :: rest, s => unlockRemaining q rest (if (s.jobAt j).owner = some q then s.setJobOwner j none else s)

/-- `CancelCleanup(q)` (R374). -/
def cancelCleanup (b : Boundary) (ctx : Ctx) (q : Nat) (s : State) : Res State := do
  let s ← b ctx s
  let s := unlockRemaining q (s.cfg.seqAt q).jobs s
  .ok (notify (s.params.cancelFiresSeqEnd && (s.cfg.seqAt q).endNotif) .seqEnd q s)

/-- What the segment `CS7` writes in the sequence (45_scheduler.md R345): one job fewer; the end of the sequence, or its next job,
unless it is cancelled. -/
def SeqState.finishOne (e : SeqState) : Res SeqState := do
  let left ← countDown e.remainingJobs
  if e.result = .cancelled then .ok { e with remainingJobs := left }
  else if left = 0 then .ok { e with remainingJobs := left, result := .ok }
  else
    let k ← countUp e.cursor
    .ok { e with remainingJobs := left, cursor := k }

/-- The segment `CS7` (R345). -/
def finishJob (j q : Nat) (s : State) : Res State := do
  let e ← (s.seqAt q).finishOne
  .ok ((s.setJob j { s.jobAt j with owner := none, result := .ok }).setSeq q e)

/-- `StartOrScheduleNext(q, u)` (R346). -/
def startOrScheduleNext (b : Boundary) (ctx : Ctx) (q u : Nat) (s : State) : Res State :=
  let n := tget (s.cfg.seqAt q).jobs (s.seqAt q).cursor
  if s.unitOf n = u ∧ (s.cfg.seqAt q).interruptible = false then do
    let s ← b ctx s
    jobTransfer b ctx n (s.setJobResult n .pending)
  else do
    let s ← scheduleJob b ctx n s
    scheduleNextJob b ctx u s

/-- `JobTransferFinished(j)` (R345). From `CS7` to `CS6` the context says that the cancelled sequence waits for its clean-up, so that a
nested `ASYNC_TRANSMIT` of it is rejected (46_cancel.md R380, 45_scheduler.md R330; log 44). -/
def jobTransferFinished (b : Boundary) (ctx : Ctx) (j : Nat) (s : State) : Res State := do
  let s ← b ctx s
  match (s.jobAt j).owner with
  | none => .error (.fault .jobWithoutOwner)
  | some q =>
    let u := s.unitOf j
    let cancelled := decide ((s.seqAt q).result = .cancelled)
    let last := decide ((s.seqAt q).remainingJobs - 1 = 0)
    let s ← finishJob j q s
    let inner := ctx.enterCleanup cancelled q
    let s ← b inner s
    let s := notify (s.cfg.jobAt j).endNotif .jobEnd j s
    if cancelled = true then
      let s ← cancelCleanup b inner q s
      scheduleNextJob b ctx u s
    else if last = true then
      scheduleNextJob b ctx u (notify (s.cfg.seqAt q).endNotif .seqEnd q s)
    else startOrScheduleNext b ctx q u s

/-- The segment `finishguard` (41_engine_fifo.md R236): the job to finish, if this path is the one that finishes it. -/
def finishGuard (u : Nat) (s : State) : Option Nat × State :=
  match (s.devAt u).curJob with
  | none => (none, s)
  | some j =>
    if (s.jobAt j).result ≠ .ok ∧ (s.jobAt j).owner ≠ none then
      let s := irqOff u s
      (some j, s.setDev u { s.devAt u with curJob := none })
    else (none, s)

/-- `JobFinishGuarded(u)` (R236). -/
def jobFinishGuarded (b : Boundary) (ctx : Ctx) (u : Nat) (s : State) : Res State := do
  let s ← b ctx s
  match finishGuard u s with
  | (none, s) => .ok s
  | (some j, s) => jobTransferFinished b ctx j s

end Sys2Proof.Machine
end

