-- ==== Sys2Proof/Machine/Cancel.lean ====
section
/-! DEFINITION. `CANCEL` and `SlaveCancel` (46_cancel.md R370, R378, R379). -/

namespace Sys2Proof.Machine

/-- How many points at which a stimulus could be taken the waiting inputs can use up: the bound on the passes of `SlaveCancel`'s
wait after which nothing can move any more (log 16). -/
def waitBudget : List Arrival → Nat
  | [] => 1
  | a :: rest => (match a.wait with | none => 0 | some k => k + 1) + waitBudget rest

/-- `repeat: st <- RegRead(u, STAT) until st.MBF = 0` (R378, R379); a wait that nothing can end is the stuck command of
93_implementation_defined.md U6. -/
def waitNotBusy (u : Nat) : Nat → State → Res State
  | 0, _ => .error (.fault .moduleBusyForever)
  | n + 1, s =>
    match readStat u s with
    | .error e => .error e
    | .ok (st, s) => if st.mbf = true then waitNotBusy u n s else .ok s

/-- The end of `slave_stop` in `Dev[u]` (R378). -/
def leaveSlaveJob (u : Nat) (s : State) : State :=
  s.setDev u { s.devAt u with curJob := none, contCSActive := false, txDone := true, rxDone := true }

/-- The segment `slave_stop` after its first test (R378). -/
def slaveStop (u : Nat) (s : State) : Res State := do
  let s := irqOff u s
  let s := if (s.cfg.unitAt u).dmaUsed = true then
    dmaStop (s.cfg.unitAt u).dmaRxCh (dmaStop (s.cfg.unitAt u).dmaTxCh s) else s
  let s ← waitNotBusy u (waitBudget s.inputs) s
  let s ← regWrite u (.ctrl true true) s
  .ok (leaveSlaveJob u s)

/-- `SlaveCancel(u, j)` (R378). -/
def slaveCancel (b : Boundary) (ctx : Ctx) (u j : Nat) (s : State) : Res State := do
  let s ← b ctx s
  if (s.devAt u).curJob = some j then
    let s ← slaveStop u s
    jobTransferFinished b ctx j s
  else .ok s

/-- The current job of a sequence (00_scope.md R23, 10_state.md R50). -/
def State.cursorJob (s : State) (q : Nat) : Nat := tget (s.cfg.seqAt q).jobs (s.seqAt q).cursor

/-- Whether the current job of a sequence is in flight on a slave unit (R370). -/
def State.slaveInFlight (s : State) (q : Nat) : Bool :=
  (s.cfg.unitAt (s.unitOf (s.cursorJob q))).slave && decide ((s.devAt (s.unitOf (s.cursorJob q))).curJob = some (s.cursorJob q))

/-- `CANCEL` (R370); the response is always 0. -/
def cmdCancel (b : Boundary) (ctx : Ctx) (q : Nat) (s : State) : Res State :=
  if s.hasAsync = false then .ok (reservedCommand 0x08 s)
  else if s.drvInit = false then .ok (fail 0x08 .uninit 0 s)
  else if s.seqInRange q = false then .ok (fail 0x08 .paramSeq 0 s)
  else if s.seqIsSync q = true ∨ (s.seqAt q).result ≠ .pending then .ok (respond 0 s)
  else if s.slaveInFlight q = true then do
    let j := s.cursorJob q
    let s ← slaveCancel b ctx (s.unitOf j) j (s.setSeqResult q .cancelled)
    .ok (respond 0 s)
  else .ok (respond 0 (s.setSeqResult q .cancelled))

end Sys2Proof.Machine
end

