-- ==== Sys2Proof/Machine/Isr.lean ====
section
/-! DEFINITION. The dispatch procedures: `IsrFifoRx` (41_engine_fifo.md R221, R222), `IsrDmaTx`, `IsrDmaRx` (42_engine_dma.md R258,
R260), and `IrqPoll`, which calls the same procedures (43_polling_and_mode.md R282, R283). -/

namespace Sys2Proof.Machine

/-- `if TxDone and RxDone then call JobFinishGuarded(u)`. -/
def finishIfDone (b : Boundary) (ctx : Ctx) (u : Nat) (s : State) : Res State :=
  if (s.devAt u).txDone = true ∧ (s.devAt u).rxDone = true then jobFinishGuarded b ctx u s else .ok s

/-- The frames of one dispatch on a master unit (R221): one received frame, and one transmit frame for it. -/
def masterDispatch (u rc : Nat) (s : State) : Res State :=
  if (s.devAt u).rxDone = false ∧ 0 < rc then do
    let s ← rxReadFrame u s
    if (s.devAt u).txDone = false then txWriteFrame u s else .ok s
  else .ok s

/-- One step of the drain loop of R222: a frame kept, or read and dropped once the receive side is done. -/
def slaveDrain (u : Nat) (s : State) : Res State :=
  if (s.devAt u).rxDone = false then rxReadFrame u s
  else do
    let (_, s) ← readRxData u s
    .ok s

/-- `WmRxOfJob`: the receive watermark of the job's channels, which all carry the same (R222, 10_state.md R35). -/
def wmRxOfJob (j : Nat) (s : State) : Nat := (s.cfg.channelAt (s.chanOf j 0)).wmRx

/-- The frames of one dispatch on a slave unit (R222). -/
def slaveDispatch (u tc rc : Nat) (s : State) : Res State := do
  let j ← currentJob u s
  let s ← repeatN (slaveDrain u) (min rc (wmRxOfJob j s + 1)) s
  if (s.devAt u).txDone = false then
    repeatN (txWriteFrame u) (min (s.params.fifoSize - tc) (s.devAt u).txRemaining) s
  else .ok s

/-- The frames of one dispatch, by the kind of unit, given the counts read from `FIFOSTAT`. -/
def fifoDispatch (u tc rc : Nat) (s : State) : Res State :=
  if (s.cfg.unitAt u).slave = true then slaveDispatch u tc rc s else masterDispatch u rc s

/-- `IsrFifoRx(u)` (R221, R222); its first segment is the caller's. -/
def isrFifoRx (b : Boundary) (ctx : Ctx) (u : Nat) (s : State) : Res State := do
  let (counts, s) ← readFifoStat u s
  let s ← fifoDispatch u counts.1 counts.2 s
  finishIfDone b ctx u s

/-- The next load of a channel that has more than the loads so far covered (R258, R260). -/
def reload (ch n : Nat) (s : State) : State := dmaStart ch (dmaSetIter ch (chunk n) s)

/-- The segment `dispatch` of `IsrDmaTx(u)` (R258). -/
def dmaTxDispatch (u : Nat) (s : State) : Res State := do
  let j ← currentJob u s
  let c := s.chanOf j (s.devAt u).txChanIdx
  let ch := (s.cfg.unitAt u).dmaTxCh
  let s := dmaAck ch s
  let left := (s.devAt u).remainingData
  let s := s.setDev u { s.devAt u with sentFrames := (s.chanAt c).length - left }
  if 0 < left then
    .ok (reload ch left (s.setDev u { s.devAt u with remainingData := left - chunk left }))
  else if (s.devAt u).txChanIdx + 1 < s.numChannelsOf j then
    let k ← countUp (s.devAt u).txChanIdx
    txDmaChannelInit u false (s.setDev u { s.devAt u with txChanIdx := k })
  else
    let s ← clearContCS u s
    .ok (s.setDev u { s.devAt u with txDone := true })

/-- `IsrDmaTx(u)` (R258). -/
def isrDmaTx (b : Boundary) (ctx : Ctx) (u : Nat) (s : State) : Res State := do
  let s ← dmaTxDispatch u s
  finishIfDone b ctx u s

/-- The segment `dispatch` of `IsrDmaRx(u)` (R260). -/
def dmaRxDispatch (u : Nat) (s : State) : Res State := do
  let j ← currentJob u s
  let ch := (s.cfg.unitAt u).dmaRxCh
  let s := dmaAck ch s
  let left := (s.devAt u).receivedData
  if 0 < left then
    .ok (reload ch left (s.setDev u { s.devAt u with receivedData := left - chunk left }))
  else if (s.devAt u).rxChanIdx + 1 < s.numChannelsOf j then
    let k ← countUp (s.devAt u).rxChanIdx
    rxDmaChannelInit u (s.setDev u { s.devAt u with rxChanIdx := k })
  else .ok (s.setDev u { s.devAt u with rxDone := true })

/-- `IsrDmaRx(u)` (R260). -/
def isrDmaRx (b : Boundary) (ctx : Ctx) (u : Nat) (s : State) : Res State := do
  let s ← dmaRxDispatch u s
  finishIfDone b ctx u s

/-- `IrqPoll(u)` on a FIFO unit (R282); the `STAT` read and the dispatch are one segment. -/
def irqPollFifo (b : Boundary) (ctx : Ctx) (u : Nat) (s : State) : Res State := do
  let (st, s) ← readStat u s
  if st.tdf = true ∨ st.rdf = true then isrFifoRx b ctx u s else .ok s

/-- The receive half of `IrqPoll(u)` on a DMA unit: its test is made on the state the first handler left (R283). DESIGN CHOICE: with
`CurJob = None` the test is false already, so the receive flag is not read and no `DmaPoll` goes out; the rule does not say whether its
`and` stops at the first false test; unsafe for a claim about that entry (log 45). -/
def irqPollDmaRx (b : Boundary) (ctx : Ctx) (u : Nat) (s : State) : Res State :=
  if (s.devAt u).curJob.isSome = true then
    match dmaPoll (s.cfg.unitAt u).dmaRxCh s with
    | (true, s) => isrDmaRx b ctx u s
    | (false, s) => .ok s
  else .ok s

/-- `IrqPoll(u)` on a DMA unit (R283): the transmit flag first. A flag's read and the dispatch it leads to are one segment; the
receive half starts a segment of its own when the transmit handler ran (log 19). -/
def irqPollDma (b : Boundary) (ctx : Ctx) (u : Nat) (s : State) : Res State :=
  match dmaPoll (s.cfg.unitAt u).dmaTxCh s with
  | (true, s) => do
    let s ← isrDmaTx b ctx u s
    let s ← b ctx s
    irqPollDmaRx b ctx u s
  | (false, s) => irqPollDmaRx b ctx u s

/-- `IrqPoll(u)` (R282, R283). -/
def irqPoll (b : Boundary) (ctx : Ctx) (u : Nat) (s : State) : Res State :=
  if (s.cfg.unitAt u).dmaUsed = true then irqPollDma b (ctx.enterPoll u) u s else irqPollFifo b (ctx.enterPoll u) u s

end Sys2Proof.Machine
end

