-- ==== Sys2Proof/Machine/Events.lean ====
section
/-! DEFINITION. The three events: the tests that make one spurious, and the handlers (41_engine_fifo.md R220, 42_engine_dma.md R258,
R260; 60_exceptions.md R410, R412, R414 to R416). -/

namespace Sys2Proof.Machine

/-- The tests that all three kinds share (60_exceptions.md R412): the variant has events (00_scope.md R8), the driver is initialised,
the unit is configured and asynchronous, in `INTERRUPT` mode, with a job in flight. -/
def State.eventServed (s : State) (u : Nat) : Bool :=
  s.hasAsync && (s.drvInit && (s.unitInRange u && (!(s.cfg.unitAt u).isSync &&
    (decide ((s.devAt u).asyncMode = .interrupt) && (s.devAt u).curJob.isSome))))

/-- `EV_FIFO(u)` is not spurious (R220, R412). -/
def State.fifoServed (s : State) (u : Nat) : Bool :=
  s.eventServed u && (!(s.cfg.unitAt u).dmaUsed && (s.devAt u).irqEnabled)

/-- A completion event of DMA channel `ch` of unit `u` is not spurious (R258, R260, R412). -/
def State.dmaServed (s : State) (u ch : Nat) : Bool := s.eventServed u && ((s.cfg.unitAt u).dmaUsed && (s.dmaAt ch).done)

/-- `EV_FIFO(u)` (R220). -/
def handleFifo (b : Boundary) (ctx : Ctx) (u : Nat) (s : State) : Res State :=
  if s.fifoServed u = true then isrFifoRx b (ctx.enterHandler u) u s else .ok s

/-- `EV_DMA_TX(u)` (R258). -/
def handleDmaTx (b : Boundary) (ctx : Ctx) (u : Nat) (s : State) : Res State :=
  if s.dmaServed u (s.cfg.unitAt u).dmaTxCh = true then isrDmaTx b (ctx.enterHandler u) u s else .ok s

/-- `EV_DMA_RX(u)` (R260). -/
def handleDmaRx (b : Boundary) (ctx : Ctx) (u : Nat) (s : State) : Res State :=
  if s.dmaServed u (s.cfg.unitAt u).dmaRxCh = true then isrDmaRx b (ctx.enterHandler u) u s else .ok s

end Sys2Proof.Machine
end

