-- ==== Sys2Proof/Machine/CfgCheck.lean ====
section
/-! DEFINITION. `WellFormed(Cfg)` (40_lifecycle_buffers_queries.md R172, 10_state.md R35), clause by clause. -/

namespace Sys2Proof.Machine

/-- The field ranges of a channel (R31): `MaxLength` 1 to 65535, watermarks 0 to `SPI_FIFO_SIZE` - 1, and an internal
channel's buffer addresses multiples of the frame size (R35). -/
def channelOk (p : Params) (c : ChannelCfg) : Bool :=
  decide (1 ≤ c.maxLength) && decide (c.maxLength ≤ 65535) && decide (c.wmTx < p.fifoSize) && decide (c.wmRx < p.fifoSize) &&
    (decide (c.bufKind = .eb) || (aligned c.ibTxAddr c.width && aligned c.ibRxAddr c.width))

/-- All channels of a job carry the same watermark pair, and it is 0, 0 when the unit is a master (R35). -/
def watermarksOk (cfg : Cfg) (j : JobCfg) : Bool :=
  j.channels.all fun c =>
    decide ((cfg.channelAt c).wmTx = (cfg.channelAt (tget j.channels 0)).wmTx) &&
    decide ((cfg.channelAt c).wmRx = (cfg.channelAt (tget j.channels 0)).wmRx) &&
    ((cfg.unitAt j.hwUnit).slave || (decide ((cfg.channelAt c).wmTx = 0) && decide ((cfg.channelAt c).wmRx = 0)))

/-- A job (R32, R35): a non-empty channel list that a 16-bit cursor indexes (R51; log 22), with every id in range, a configured unit,
a priority 0 to 3. -/
def jobOk (cfg : Cfg) (j : JobCfg) : Bool :=
  !j.channels.isEmpty && decide (j.channels.length ≤ 65535) && (j.channels.all fun c => decide (c < cfg.numChannels)) &&
    decide (j.hwUnit < cfg.numUnits) && decide (j.priority ≤ 3) && watermarksOk cfg j

/-- A sequence (R33, R35): a non-empty job list of a 16-bit count (R50, 00_scope.md R21; log 22), with every id in
range, all its jobs on units of one partition. -/
def seqOk (cfg : Cfg) (q : SeqCfg) : Bool :=
  !q.jobs.isEmpty && decide (q.jobs.length ≤ 65535) && (q.jobs.all fun j => decide (j < cfg.numJobs)) &&
    q.jobs.all fun j => decide ((cfg.unitAt (cfg.jobAt j).hwUnit).isSync = (cfg.unitAt (cfg.jobAt (tget q.jobs 0)).hwUnit).isSync)

/-- A unit (R35): a synchronous unit has no DMA and is no slave. -/
def unitOk (u : UnitCfg) : Bool := !u.isSync || (!u.dmaUsed && !u.slave)

/-- The DMA channel numbers in use: two per DMA unit (R34). -/
def dmaNumbers : List UnitCfg → List Nat
  | [] => []
  | u :: rest => if u.dmaUsed = true then u.dmaTxCh :: u.dmaRxCh :: dmaNumbers rest else dmaNumbers rest

/-- No value occurs twice. -/
def noRepeat {α : Type} [DecidableEq α] : List α → Bool
  | [] => true
  | a :: rest => !rest.contains a && noRepeat rest

/-- The table sizes: `1 ≤ NUM_*` (R9), `NUM_HW_UNITS ≤ 13` (R172), `NUM_* ≤ 65535` (R9) and `NUM_* ≤ MAX_*` (R35). -/
def sizesOk (p : Params) (cfg : Cfg) : Bool :=
  decide (1 ≤ cfg.numUnits) && decide (cfg.numUnits ≤ 13) &&
  decide (1 ≤ cfg.numChannels) && decide (cfg.numChannels ≤ 65535) && decide (cfg.numChannels ≤ p.maxChannels) &&
  decide (1 ≤ cfg.numJobs) && decide (cfg.numJobs ≤ 65535) && decide (cfg.numJobs ≤ p.maxJobs) &&
  decide (1 ≤ cfg.numSeqs) && decide (cfg.numSeqs ≤ 65535) && decide (cfg.numSeqs ≤ p.maxSequences)

/-- `WellFormed(Cfg)` (R172): the conditions of R35, `NUM_HW_UNITS ≤ 13`, and no byte swap (20_memory.md R97). -/
def cfgWellFormed (p : Params) (cfg : Cfg) : Bool :=
  sizesOk p cfg && !p.swap32 && cfg.channels.all (channelOk p) && cfg.jobs.all (jobOk cfg) && cfg.seqs.all (seqOk cfg) &&
    cfg.units.all unitOk && noRepeat ((List.range cfg.numUnits).map p.baseAt) && noRepeat (dmaNumbers cfg.units)

end Sys2Proof.Machine
end

