-- ==== Sys2Proof/Machine/SyncEngine.lean ====
section
/-! DEFINITION. The synchronous engines: the busy-wait passes, `SyncJobTransfer`, `SyncSeq_General` and the fast path
`SyncSeq_Fast` (44_sync_transmit.md R305 to R310). The time-out counter is a local value, an argument here (R309). -/

namespace Sys2Proof.Machine

/-- The transmit half of a pass (R306, R308): one frame if one remains and the count read leaves room; after the last frame of the
last channel the chip-select clear. -/
def syncSend (u c : Nat) (w : Width) (lastChan : Bool) (tc : Nat) (s : State) : Res State :=
  if 0 < (s.devAt u).txRemaining ∧ tc < s.params.fifoSize then do
    let s ← sendFrame u c w s
    if (s.devAt u).txRemaining = 0 ∧ lastChan = true then clearContCS u s else .ok s
  else .ok s

/-- The receive half of a pass (R306). -/
def syncReceive (u c : Nat) (w : Width) (rc : Nat) (s : State) : Res State :=
  if 0 < (s.devAt u).rxRemaining ∧ 0 < rc then receiveFrame u c w s else .ok s

/-- One productive or idle pass (R306): one `FIFOSTAT` read, then at most one frame each way, transmit first. -/
def syncPass (u c : Nat) (w : Width) (lastChan : Bool) (s : State) : Res State := do
  let (counts, s) ← readFifoStat u s
  let s ← syncSend u c w lastChan counts.1 s
  syncReceive u c w counts.2 s

/-- Whether the channel has frames left on either side: the loop's condition (R306). -/
def syncLeft (u : Nat) (s : State) : Bool :=
  decide (0 < (s.devAt u).txRemaining) || decide (0 < (s.devAt u).rxRemaining)

/-- The abort of a pass that finds the counter 0 (R306, R309): no register access, and a dirty peripheral from then on
(93_implementation_defined.md U8). -/
def syncAbort (u : Nat) (s : State) : State :=
  (s.setDev u { s.devAt u with curJob := none, contCSActive := false }).soilUnit u

/-- The passes of one channel, by the counter: what is left of it, or nothing after a time-out (R306, R309). -/
def syncPasses (b : Boundary) (ctx : Ctx) (u c : Nat) (w : Width) (lastChan : Bool) : Nat → State → Res (Option Nat × State)
  | 0, s =>
    if syncLeft u s = true then
      match b ctx s with
      | .error e => .error e
      | .ok s => .ok (none, syncAbort u s)
    else .ok (some 0, s)
  | t + 1, s =>
    if syncLeft u s = true then
      match b ctx s with
      | .error e => .error e
      | .ok s =>
        match syncPass u c w lastChan s with
        | .error e => .error e
        | .ok s => syncPasses b ctx u c w lastChan t s
    else .ok (some (t + 1), s)

/-- `Dev[u].TxChanIdx <- k; Dev[u].RxChanIdx <- k` (R306), 16-bit cursors (10_state.md R51; log 26). -/
def setChanIdx (u k : Nat) (s : State) : Res State :=
  if k ≤ 65535 then .ok (s.setDev u { s.devAt u with txChanIdx := k, rxChanIdx := k }) else .error (.fault .counterWrap)

/-- The channels of a job from index `k` on, general path (R306). -/
def syncChannels (b : Boundary) (ctx : Ctx) (u : Nat) : List Nat → Nat → Nat → State → Res (Option Nat × State)
  | [], _, t, s => .ok (some t, s)
  | c :: rest, k, t, s => do
    let s ← setChanIdx u k s
    let s ← txChannelInit u (decide (k = 0)) s
    let s ← rxChannelInit u s
    let (left, s) ← syncPasses b ctx u c (s.cfg.channelAt c).width rest.isEmpty t s
    match left with
    | none => .ok (none, s)
    | some t => syncChannels b ctx u rest (k + 1) t s

/-- The job's start in `Dev[u]` (R306). -/
def enterSyncJob (u j : Nat) (s : State) : State :=
  s.setDev u { s.devAt u with curJob := some j, txDone := false, rxDone := false, contCSActive := false }

/-- The job's end in `Dev[u]` (R306). -/
def leaveSyncJob (u : Nat) (s : State) : State :=
  s.setDev u { s.devAt u with txDone := true, rxDone := true, curJob := none }

/-- The end of `SyncJobTransfer` (R306): after a time-out nothing more, else the job leaves the unit. -/
def syncJobEnd (u : Nat) : Option Nat × State → Option Nat × State
  | (none, s) => (none, s)
  | (some t, s) => (some t, leaveSyncJob u s)

/-- `SyncJobTransfer(j)` (R306); a job with overlapping buffers is refused (93_implementation_defined.md U11). -/
def syncJobTransfer (b : Boundary) (ctx : Ctx) (j t : Nat) (s : State) : Res (Option Nat × State) := do
  let s ← b ctx s
  if s.buffersOverlap j = true then .error (.refused .overlappingBuffers)
  else
    let u := s.unitOf j
    let s ← regWrite u (.clkcfg (s.cfg.jobAt j).dev.clockTiming) s
    let r ← syncChannels b ctx u (s.cfg.jobAt j).channels 0 t (enterSyncJob u j s)
    .ok (syncJobEnd u r)

/-- The end of a job in `SyncSeq_General` (R305): its result and its end notification. -/
def syncResult (j : Nat) (r : JobResult) (s : State) : State :=
  notify (s.cfg.jobAt j).endNotif .jobEnd j (s.setJobResult j r)

/-- `JobState[j].Result <- PENDING` and the start notification (R305). -/
def syncJobBegin (j : Nat) (s : State) : State :=
  notify (s.cfg.jobAt j).startNotif .jobStart j (s.setJobResult j .pending)

/-- The result of a job from what is left of the counter (R305). -/
def syncVerdict : Option Nat → JobResult
  | none => .failed
  | some _ => .ok

/-- The jobs of a sequence, general path (R305): what is left of the counter, or nothing once a job has failed. -/
def syncJobs (b : Boundary) (ctx : Ctx) : List Nat → Option Nat → State → Res (Option Nat × State)
  | [], left, s => .ok (left, s)
  | j :: rest, none, s => do
    let s ← b ctx s
    syncJobs b ctx rest none (syncResult j .failed s)
  | j :: rest, some t, s => do
    let s ← b ctx s
    let (left, s) ← syncJobTransfer b ctx j t (syncJobBegin j s)
    let s ← b ctx s
    syncJobs b ctx rest left (syncResult j (syncVerdict left) s)

/-- `SyncSeq_General(q)` (R305). -/
def syncSeqGeneral (b : Boundary) (ctx : Ctx) (q t : Nat) (s : State) : Res (Option Nat × State) :=
  syncJobs b ctx (s.cfg.seqAt q).jobs (some t) s

/-- `TxChannelInit` and `RxChannelInit` from a cache entry (R310): the command word, the watermarks and the continuous-CS request
from the entry, the length through the reference to `ChanState`. -/
def fastChannelInit (e : CacheEntry) (r : CacheChan) (first : Bool) (s : State) : Res State :=
  if (s.chanAt r.chan).length = 0 then .error (.refused .zeroLengthChannel)
  else do
    let s ← programChannel e.unit first r.wmTx r.wmRx (fun cont => { r.cmd with cont := cont }) e.contCS
      (loadTxCounters e.unit r.chan s)
    loadRxCounter e.unit r.chan s

/-- The channels of a cache entry from index `k` on (R310). -/
def fastChannels (b : Boundary) (ctx : Ctx) (e : CacheEntry) : List CacheChan → Nat → Nat → State → Res (Option Nat × State)
  | [], _, t, s => .ok (some t, s)
  | r :: rest, k, t, s => do
    let s ← setChanIdx e.unit k s
    let s ← fastChannelInit e r (decide (k = 0)) s
    let (left, s) ← syncPasses b ctx e.unit r.chan r.width rest.isEmpty t s
    match left with
    | none => .ok (none, s)
    | some t => fastChannels b ctx e rest (k + 1) t s

/-- `SyncJobTransfer` from a cache entry (R310). -/
def fastJobTransfer (b : Boundary) (ctx : Ctx) (e : CacheEntry) (t : Nat) (s : State) : Res (Option Nat × State) := do
  let s ← b ctx s
  if s.buffersOverlap e.job = true then .error (.refused .overlappingBuffers)
  else
    let s ← regWrite e.unit (.clkcfg e.clockTiming) s
    let r ← fastChannels b ctx e e.chans 0 t (enterSyncJob e.unit e.job s)
    .ok (syncJobEnd e.unit r)

/-- `SyncSeq_Fast(e)` (R310): the one job of the entry, its result through the entry's reference. -/
def syncSeqFast (b : Boundary) (ctx : Ctx) (e : CacheEntry) (t : Nat) (s : State) : Res (Option Nat × State) := do
  let s ← b ctx s
  let s := notify (s.cfg.jobAt e.job).startNotif .jobStart e.job (s.setJobResult e.jobStatus .pending)
  let (left, s) ← fastJobTransfer b ctx e t s
  let s ← b ctx s
  .ok (left, notify (s.cfg.jobAt e.job).endNotif .jobEnd e.job (s.setJobResult e.jobStatus (syncVerdict left)))

/-- The cache entry of a sequence, if there is one (R304). -/
def cacheEntryOf (q : Nat) (s : State) : Option CacheEntry := s.seqCache.find? fun e => decide (e.seq = q)

/-- Path selection (R304). -/
def syncTransfer (b : Boundary) (ctx : Ctx) (q t : Nat) (s : State) : Res (Option Nat × State) :=
  match cacheEntryOf q s with
  | some e => syncSeqFast b ctx e t s
  | none => syncSeqGeneral b ctx q t s

end Sys2Proof.Machine
end

