-- ==== Sys2Proof/Machine/Lifecycle.lean ====
section
/-! DEFINITION. `INIT` and `DEINIT` (40_lifecycle_buffers_queries.md R171 to R174, 10_state.md R71 to R76, 44_sync_transmit.md R301,
R302). Each is one segment. -/

namespace Sys2Proof.Machine

/-- The configuration that a handle names (30_encoding.md R133). -/
def lookupConfig : List (Word × Cfg) → Word → Option Cfg
  | [], _ => none
  | (h, c) :: rest, a => if h = a then some c else lookupConfig rest a

/-- `ChanState[c]` after `INIT` (10_state.md R73). -/
def initChan (c : ChannelCfg) : ChanState :=
  match c.bufKind with
  | .ib => { useDefault := true, discardRx := false, length := c.maxLength, txPtr := some c.ibTxAddr, rxPtr := some c.ibRxAddr }
  | .eb => { useDefault := true, discardRx := true, length := 0, txPtr := none, rxPtr := none }

/-- `JobState[j]` after `INIT` (R74). -/
def initJob : JobState := { result := .ok, owner := none, next := none }

/-- `SeqState[q]` after `INIT` (R74). -/
def initSeq : SeqState := { result := .ok, remainingJobs := 0, cursor := 0 }

/-- `Unit[u]` of a configured unit after `INIT` (R72). -/
def initUnit : UnitQ :=
  { status := .idle, head := [none, none, none, none], tail := [none, none, none, none], maxPrio := -1 }

/-- `Dev[u]` of a configured unit after `INIT`: `Base` is written by `LpspiInit`, `CmdWord` holds no value and stays (R72). -/
def initDev (d : Dev) : Dev :=
  { d with
    asyncMode := .polling, curJob := none, txChanIdx := 0, rxChanIdx := 0, txRemaining := 0, rxRemaining := 0
    remainingData := 0, receivedData := 0, sentFrames := 0, txDone := false, rxDone := false, contCSActive := false
    irqEnabled := false }

/-- Apply `f` to the first `n` entries of a table. -/
def mapFirst {α : Type} (f : α → α) : Nat → List α → List α
  | _, [] => []
  | 0, l => l
  | n + 1, x :: rest => f x :: mapFirst f n rest

/-- The OR of `1 << HWUnit` over a sequence's jobs (44_sync_transmit.md R301). -/
def unitMask (cfg : Cfg) : List Nat → Word
  | [] => 0
  | j :: rest => (1#32 <<< (cfg.jobAt j).hwUnit) ||| unitMask cfg rest

/-- `SeqUsedHWUnits[q]` (R301). -/
def usedUnitsOf (p : Params) (cfg : Cfg) (q : SeqCfg) : Word :=
  if p.concurrentSync = true then unitMask cfg q.jobs else (1#32 <<< cfg.numUnits) - 1

/-- The cache entry for sequence `q` of the one job `j` (10_state.md R67). -/
def cacheEntry (p : Params) (cfg : Cfg) (q j : Nat) : CacheEntry :=
  { seq := q, job := j, unit := (cfg.jobAt j).hwUnit, base := p.baseAt (cfg.jobAt j).hwUnit
    clockTiming := (cfg.jobAt j).dev.clockTiming, contCS := (cfg.jobAt j).dev.contCS, jobStatus := j
    chans := (cfg.jobAt j).channels.map fun c =>
      { cmd := chanCmd cfg j c false, wmTx := (cfg.channelAt c).wmTx, wmRx := (cfg.channelAt c).wmRx
        width := (cfg.channelAt c).width, chan := c } }

/-- The loop that fills the cache, from sequence `q` on: what the pools still hold decides (R302). -/
def fillCache (p : Params) (cfg : Cfg) : List SeqCfg → Nat → Nat → Nat → List CacheEntry
  | [], _, _, _ => []
  | e :: rest, q, entries, used =>
    match e.jobs with
    | [j] =>
      let n := (cfg.jobAt j).channels.length
      if entries < cfg.seqPool ∧ used + n ≤ cfg.chanPool then
        cacheEntry p cfg q j :: fillCache p cfg rest (q + 1) (entries + 1) (used + n)
      else fillCache p cfg rest (q + 1) entries used
    | _ => fillCache p cfg rest (q + 1) entries used

/-- `SeqCache` (R302): empty when either pool size is 0. -/
def seqCacheOf (p : Params) (cfg : Cfg) : List CacheEntry :=
  if cfg.seqPool ≠ 0 ∧ cfg.chanPool ≠ 0 then fillCache p cfg cfg.seqs 0 0 0 else []

/-- The tables after `INIT` (R72 to R75), before the hardware initialisation. -/
def initTables (c : Cfg) (s : State) : State :=
  { s with
    cfg := c
    syncBusyMask := 0
    unit := mapFirst (fun _ => initUnit) c.numUnits s.unit
    dev := mapFirst initDev c.numUnits s.dev
    chan := c.channels.map initChan
    job := c.jobs.map fun _ => initJob
    seq := c.seqs.map fun _ => initSeq
    seqUsedHWUnits := c.seqs.map (usedUnitsOf s.params c)
    seqCache := seqCacheOf s.params c }

/-- The OR of the idle polarities of a unit's devices (40_lifecycle_buffers_queries.md R173). -/
def idlePolarity (u : Nat) : List JobCfg → Word
  | [] => 0
  | j :: rest => if j.hwUnit = u then j.dev.csIdlePol ||| idlePolarity u rest else idlePolarity u rest

/-- `LpspiInit(u)` (R173). -/
def lpspiInit (u : Nat) (s : State) : Res State := do
  let s := s.setDev u { s.devAt u with base := s.params.baseAt u }
  let s ← regWrite u (.cspol (idlePolarity u s.cfg.jobs)) s
  .ok (if (s.cfg.unitAt u).dmaUsed = true then
    dmaBindRx (s.cfg.unitAt u).dmaRxCh u (dmaBindTx (s.cfg.unitAt u).dmaTxCh u s)
  else s)

/-- `LpspiInit` of the units of a list, in order. -/
def lpspiInitAll : List Nat → State → Res State
  | [], s => .ok s
  | u :: rest, s =>
    match lpspiInit u s with
    | .error e => .error e
    | .ok s' => lpspiInitAll rest s'

/-- What a successful `INIT` does before its response (R171). -/
def initWith (c : Cfg) (s : State) : Res State := do
  let s ← lpspiInitAll (List.range c.numUnits) (initTables c s)
  .ok { s with drvInit := true }

/-- `INIT` (R171). A handle at which the host built nothing is an ill-formed configuration (log 21). -/
def cmdInit (a0 : Word) (s : State) : Res State :=
  if s.drvInit = true then .ok (fail 0x01 .alreadyInitialized 0 s)
  else if a0 = 0 then .ok (fail 0x01 .paramPointer 0 s)
  else
    match lookupConfig s.hostConfigs a0 with
    | none => .ok (fail 0x01 .paramConfig 0 s)
    | some c =>
      if cfgWellFormed s.params c = true then do
        let s ← initWith c s
        .ok (respond 0 s)
      else .ok (fail 0x01 .paramConfig 0 s)

/-- `Unit[u].Status <- UNINIT` for the configured units (R174). -/
def uninitUnits (s : State) : State :=
  { s with unit := mapFirst (fun q => { q with status := .uninit }) s.cfg.numUnits s.unit }

/-- `DEINIT` (R174); the fields that hold no value afterwards keep what they held (log 20). -/
def cmdDeinit (s : State) : Res State :=
  if s.drvInit = false then .ok (fail 0x02 .uninit eNotOk s)
  else if s.driverStatus = .busy then .ok (respond eNotOk s)
  else .ok (respond eOk { uninitUnits s with drvInit := false })

end Sys2Proof.Machine
end

