-- ==== Sys2Proof/Machine/Modes.lean ====
section
/-! DEFINITION. The asynchronous-mode commands and the polling command (43_polling_and_mode.md R280 to R291). -/

namespace Sys2Proof.Machine

/-- Whether some asynchronous unit is `BUSY` (R290). -/
def State.asyncUnitBusy (s : State) : Bool :=
  (List.range s.cfg.numUnits).any fun u => !(s.cfg.unitAt u).isSync && decide ((s.unitAt u).status = .busy)

/-- `Dev[u].AsyncMode <- m`. -/
def setMode (u : Nat) (m : Mode) (s : State) : State := s.setDev u { s.devAt u with asyncMode := m }

/-- `Dev[u].AsyncMode <- m` for the asynchronous units of a list (R290). -/
def setModes (m : Mode) : List Nat → State → State
  | [], s => s
  | u :: rest, s => setModes m rest (if (s.cfg.unitAt u).isSync = true then s else setMode u m s)

/-- `SET_ASYNC_MODE` (R290): all asynchronous units or none. -/
def cmdSetAsyncMode (m : Mode) (s : State) : Res State :=
  if s.hasAsync = false then .ok (reservedCommand 0x0D s)
  else if s.drvInit = false then .ok (fail 0x0D .uninit eNotOk s)
  else if s.asyncUnitBusy = true then .ok (respond eNotOk s)
  else .ok (respond eOk (setModes m (List.range s.cfg.numUnits) s))

/-- `SET_HWUNIT_ASYNC_MODE` (R291). -/
def cmdSetHwunitAsyncMode (u : Nat) (m : Mode) (s : State) : Res State :=
  if s.hasAsync = false then .ok (reservedCommand 0x0E s)
  else if s.drvInit = false then .ok (fail 0x0E .uninit eNotOk s)
  else if s.unitInRange u = false ∨ (s.cfg.unitAt u).isSync = true then .ok (fail 0x0E .paramUnit eNotOk s)
  else if (s.unitAt u).status = .busy then .ok (respond eNotOk s)
  else .ok (respond eOk (setMode u m s))

/-- Whether a pass polls unit `u` (R280). -/
def State.pollable (s : State) (u : Nat) : Bool :=
  decide ((s.unitAt u).status = .busy) && (!(s.cfg.unitAt u).isSync &&
    (decide ((s.devAt u).asyncMode = .polling) && (s.devAt u).curJob.isSome))

/-- What a pass does for one unit (R280). A unit whose `IrqPoll` is running, in a pass that this one interrupts, is passed over:
one unit's dispatches are totally ordered (20_memory.md R113; log 33). -/
def pollUnit (b : Boundary) (ctx : Ctx) (u : Nat) (s : State) : Res State :=
  if s.pollable u = true ∧ u ∉ ctx.units then irqPoll b ctx u s else .ok s

/-- One pass over the units of a list (R280). -/
def pollUnits (b : Boundary) (ctx : Ctx) : List Nat → State → Res State
  | [], s => .ok s
  | u :: rest, s => do
    let s ← b ctx s
    let s ← pollUnit b ctx u s
    pollUnits b ctx rest s

/-- `MAIN_FUNCTION_HANDLING` (R280). -/
def cmdMainFunctionHandling (b : Boundary) (ctx : Ctx) (s : State) : Res State :=
  if s.hasAsync = false then .ok (reservedCommand 0x0F s)
  else if s.drvInit = false then .ok (respond 0 s)
  else do
    let s ← pollUnits b ctx (List.range s.cfg.numUnits) s
    .ok (respond 0 s)

end Sys2Proof.Machine
end

