-- ==== Sys2Proof/Machine/Queries.lean ====
section
/-! DEFINITION. The four pure queries (40_lifecycle_buffers_queries.md R184 to R188). Each is one segment. -/

namespace Sys2Proof.Machine

/-- `GET_JOB_RESULT` (R184). -/
def cmdGetJobResult (j : Nat) (s : State) : Res State :=
  if s.drvInit = false then .ok (fail 0x09 .uninit (jobResultCode .failed) s)
  else if s.jobInRange j = false then .ok (fail 0x09 .paramJob (jobResultCode .failed) s)
  else .ok (respond (jobResultCode (s.jobAt j).result) s)

/-- `GET_SEQ_RESULT` (R185). -/
def cmdGetSeqResult (q : Nat) (s : State) : Res State :=
  if s.drvInit = false then .ok (fail 0x0A .uninit (seqResultCode .failed) s)
  else if s.seqInRange q = false then .ok (fail 0x0A .paramSeq (seqResultCode .failed) s)
  else .ok (respond (seqResultCode (s.seqAt q).result) s)

/-- `GET_STATUS` (R186): never an error. -/
def cmdGetStatus (s : State) : Res State := .ok (respond (statusCode s.driverStatus) s)

/-- `GET_HWUNIT_STATUS` (R187). -/
def cmdGetHwunitStatus (u : Nat) (s : State) : Res State :=
  if s.drvInit = false then .ok (fail 0x0C .uninit (statusCode .uninit) s)
  else if s.unitInRange u = false then .ok (fail 0x0C .paramUnit (statusCode .uninit) s)
  else if s.syncBusy u = true then .ok (respond (statusCode .busy) s)
  else .ok (respond (statusCode (s.unitAt u).status) s)

end Sys2Proof.Machine
end

