-- ==== Sys2Proof/Machine/Transmit.lean ====
section
/-! DEFINITION. `SYNC_TRANSMIT` (44_sync_transmit.md R303, R312, R313) and `ASYNC_TRANSMIT` (45_scheduler.md R330). -/

namespace Sys2Proof.Machine

/-- The claim of `CS1` (R303). -/
def claimSync (q : Nat) (s : State) : State :=
  { s.setSeqResult q .pending with syncBusyMask := s.syncBusyMask ||| s.usedUnits q }

/-- The segment `CS2` (R312). -/
def releaseSync (q : Nat) (failed : Bool) (s : State) : State :=
  { s.setSeqResult q (if failed = true then .failed else .ok) with syncBusyMask := s.syncBusyMask &&& ~~~(s.usedUnits q) }

/-- The last segment of `SYNC_TRANSMIT` (R303, R313, 60_exceptions.md R405). -/
def syncFinish (q : Nat) (failed : Bool) (s : State) : State :=
  let s := if failed = true then reportDemTimeout s else s
  let s := notify (s.params.syncFiresSeqEnd && (s.cfg.seqAt q).endNotif) .seqEnd q s
  respond (if failed = true then eNotOk else eOk) s

/-- What `SYNC_TRANSMIT` does once `CS1` has claimed the units (R303). -/
def syncRun (b : Boundary) (ctx : Ctx) (q : Nat) (s : State) : Res State := do
  let (left, s) ← syncTransfer b ctx q s.params.timeoutCounter.toNat s
  let s ← b ctx s
  let s ← b ctx (releaseSync q left.isNone s)
  .ok (syncFinish q left.isNone s)

/-- `SYNC_TRANSMIT` (R303). -/
def cmdSyncTransmit (b : Boundary) (ctx : Ctx) (q : Nat) (s : State) : Res State :=
  if s.hasSync = false then .ok (reservedCommand 0x06 s)
  else if s.drvInit = false then .ok (fail 0x06 .uninit eNotOk s)
  else if s.seqInRange q = false then .ok (fail 0x06 .paramSeq eNotOk s)
  else if s.seqIsSync q = false then .ok (fail 0x06 .paramSeq eNotOk s)
  else do
    let s ← b ctx s
    if (s.seqAt q).result = .pending ∨ s.syncBusyMask &&& s.usedUnits q ≠ 0 then .ok (fail 0x06 .seqInProcess eNotOk s)
    else syncRun b ctx q (claimSync q s)

/-- `JobState[j].Result <- QUEUED` for the jobs of a list. -/
def queueAll : List Nat → State → State
  | [], s => s
  | j :: rest, s => queueAll rest (s.setJobResult j .queued)

/-- The segment `async_accept` (45_scheduler.md R330). -/
def acceptSeq (q : Nat) (s : State) : State :=
  queueAll (s.cfg.seqAt q).jobs
    (s.setSeq q { result := .pending, remainingJobs := (s.cfg.seqAt q).jobs.length, cursor := 0 })

/-- The segment `CS5` (R330, R331): a sequence whose clean-up has not run yet is rejected like one that is locked (46_cancel.md R380;
DEDUCED: also when its last locked job is unlocked already; log 44). -/
def tryLock (ctx : Ctx) (q : Nat) (s : State) : Bool × State := if q ∈ ctx.cleanups then (false, s) else lockJobs q s

/-- `ASYNC_TRANSMIT` (R330). -/
def cmdAsyncTransmit (b : Boundary) (ctx : Ctx) (q : Nat) (s : State) : Res State :=
  if s.hasAsync = false then .ok (reservedCommand 0x07 s)
  else if s.drvInit = false then .ok (fail 0x07 .uninit eNotOk s)
  else if s.seqInRange q = false then .ok (fail 0x07 .paramSeq eNotOk s)
  else if s.seqIsSync q = true then .ok (fail 0x07 .paramSeq eNotOk s)
  else do
    let s ← b ctx s
    match tryLock ctx q s with
    | (false, s) => .ok (fail 0x07 .seqPending eNotOk s)
    | (true, s) =>
      let s ← b ctx s
      let s := acceptSeq q s
      let s ← scheduleJob b ctx (tget (s.cfg.seqAt q).jobs 0) s
      .ok (respond eOk s)

end Sys2Proof.Machine
end

