-- ==== Sys2Proof/Machine/Interleave.lean ====
section
/-! DEFINITION. What runs between two segments: nested commands, handlers and the moves of other hardware, in the order the inputs
give (20_memory.md R110 to R113, 60_exceptions.md R413 to R415; log 18, log 33). -/

namespace Sys2Proof.Machine

/-- The procedure of an instruction that arrives between two segments. -/
def runInstr (b : Boundary) (ctx : Ctx) (i : Instr) (s : State) : Res State :=
  match i with
  | .init a0 => cmdInit a0 s
  | .deinit => cmdDeinit s
  | .writeIb c a0 => cmdWriteIb c.toNat a0 s
  | .readIb c a0 => cmdReadIb c.toNat a0 s
  | .setupEb c a0 a1 a2 => cmdSetupEb c.toNat a0 a1 a2 s
  | .syncTransmit q => cmdSyncTransmit b ctx q.toNat s
  | .asyncTransmit q => cmdAsyncTransmit b ctx q.toNat s
  | .cancel q => cmdCancel b ctx q.toNat s
  | .getJobResult j => cmdGetJobResult j.toNat s
  | .getSeqResult q => cmdGetSeqResult q.toNat s
  | .getStatus => cmdGetStatus s
  | .getHwunitStatus u => cmdGetHwunitStatus u.toNat s
  | .setAsyncMode m => cmdSetAsyncMode m s
  | .setHwunitAsyncMode u m => cmdSetHwunitAsyncMode u.toNat m s
  | .mainFunctionHandling => cmdMainFunctionHandling b ctx s
  | .evFifo u => handleFifo b ctx u.toNat s
  | .evDmaTx u => handleDmaTx b ctx u.toNat s
  | .evDmaRx u => handleDmaRx b ctx u.toNat s

/-- A presented word is taken from its port: an event that the DMA engine raised is raised no longer (60_exceptions.md R410:
edge-like). -/
def State.takeWord (s : State) : PortWords → State
  | .command _ _ _ _ => s
  | .event evt => { s with raised := s.raised.erase evt }

/-- A reserved word: an error report and a response for a command (30_encoding.md R145), nothing for an event (R146). -/
def reservedWord : PortWords → State → State
  | .command cmd _ _ _, s => reservedCommand (opField cmd) s
  | .event _, s => s

/-- A stimulus between two segments. -/
def runStimulus (b : Boundary) (ctx : Ctx) (x : Stimulus) (s : State) : Res State :=
  match x with
  | .port p =>
    match decode p with
    | .ok i => runInstr b ctx i (s.takeWord p)
    | .error _ => .ok (reservedWord p (s.takeWord p))
  | x => agentMove x s

/-- Whether the host may act, presenting any command word among others: in the foreground, with pre-emption (20_memory.md R110;
60_exceptions.md R415). -/
def hostMayAct (s : State) (ctx : Ctx) : Bool := !ctx.handler && s.params.hostPreemption

/-- Whether the handler of an event may start: never for a unit whose handler or poll runs, inside another handler only with
`NESTED_IRQ` (R112, R113). -/
def eventAdmissible (s : State) (ctx : Ctx) (evt : Byte) : Bool :=
  !ctx.units.contains (unitField evt).toNat && (!ctx.handler || s.params.nestedIrq)

/-- Whether a stimulus may come between two segments of a procedure that runs in context `ctx`. -/
def admissible (s : State) (ctx : Ctx) : Stimulus → Bool
  | .port (.command _ _ _ _) => hostMayAct s ctx
  | .port (.event evt) => eventAdmissible s ctx evt
  | .take _ => true
  | .shift _ _ => true
  | .clockIn _ _ => true
  | .setBusy _ _ => true
  | .dmaTx _ => true
  | .dmaRx _ => true
  | .hwReset _ => hostMayAct s ctx
  | .hostStore _ _ => hostMayAct s ctx
  | .hostConfig _ _ => hostMayAct s ctx

/-- The boundary between two segments: the stimuli that are due and admissible run, each to its end, a nested procedure with
boundaries of its own. `fuel` is at least the number of waiting stimuli; every one that runs uses one up. -/
def deliver : Nat → Boundary
  | 0, _, s => .ok s
  | fuel + 1, ctx, s =>
    match pick (admissible s ctx) s.inputs with
    | (none, rest) => .ok { s with inputs := rest }
    | (some x, rest) =>
      match runStimulus (deliver fuel) ctx x { s with inputs := rest } with
      | .error e => .error e
      | .ok s' => deliver fuel ctx s'

/-- The boundary of a procedure that starts in state `s`. -/
def State.boundary (s : State) : Boundary := deliver s.inputs.length

end Sys2Proof.Machine
end

