-- ==== Sys2Proof/Machine/Commands.lean ====
section
/-! DEFINITION. The meanings of the fifteen commands, each its procedure run in the foreground, with the state's own inputs at its
boundaries (30_encoding.md R136, 60_exceptions.md R424). -/

namespace Sys2Proof.Machine

/-- `INIT` (40_lifecycle_buffers_queries.md R171). -/
def execInit (a0 : Word) (s : State) : Host.Outcome State Fault Refusal := outcome (cmdInit a0 s)

/-- `DEINIT` (R174). -/
def execDeinit (s : State) : Host.Outcome State Fault Refusal := outcome (cmdDeinit s)

/-- `WRITE_IB` (R176). -/
def execWriteIb (chan : BitVec 16) (a0 : Word) (s : State) : Host.Outcome State Fault Refusal :=
  outcome (cmdWriteIb chan.toNat a0 s)

/-- `READ_IB` (R178). -/
def execReadIb (chan : BitVec 16) (a0 : Word) (s : State) : Host.Outcome State Fault Refusal :=
  outcome (cmdReadIb chan.toNat a0 s)

/-- `SETUP_EB` (R180). -/
def execSetupEb (chan : BitVec 16) (a0 a1 a2 : Word) (s : State) : Host.Outcome State Fault Refusal :=
  outcome (cmdSetupEb chan.toNat a0 a1 a2 s)

/-- `SYNC_TRANSMIT` (44_sync_transmit.md R303). -/
def execSyncTransmit (seq : BitVec 16) (s : State) : Host.Outcome State Fault Refusal :=
  outcome (cmdSyncTransmit s.boundary Ctx.foreground seq.toNat s)

/-- `ASYNC_TRANSMIT` (45_scheduler.md R330). -/
def execAsyncTransmit (seq : BitVec 16) (s : State) : Host.Outcome State Fault Refusal :=
  outcome (cmdAsyncTransmit s.boundary Ctx.foreground seq.toNat s)

/-- `CANCEL` (46_cancel.md R370). -/
def execCancel (seq : BitVec 16) (s : State) : Host.Outcome State Fault Refusal :=
  outcome (cmdCancel s.boundary Ctx.foreground seq.toNat s)

/-- `GET_JOB_RESULT` (40_lifecycle_buffers_queries.md R184). -/
def execGetJobResult (job : BitVec 16) (s : State) : Host.Outcome State Fault Refusal := outcome (cmdGetJobResult job.toNat s)

/-- `GET_SEQ_RESULT` (R185). -/
def execGetSeqResult (seq : BitVec 16) (s : State) : Host.Outcome State Fault Refusal := outcome (cmdGetSeqResult seq.toNat s)

/-- `GET_STATUS` (R186). -/
def execGetStatus (s : State) : Host.Outcome State Fault Refusal := outcome (cmdGetStatus s)

/-- `GET_HWUNIT_STATUS` (R187). -/
def execGetHwunitStatus (unit : BitVec 16) (s : State) : Host.Outcome State Fault Refusal :=
  outcome (cmdGetHwunitStatus unit.toNat s)

/-- `SET_ASYNC_MODE` (43_polling_and_mode.md R290). -/
def execSetAsyncMode (mode : Mode) (s : State) : Host.Outcome State Fault Refusal := outcome (cmdSetAsyncMode mode s)

/-- `SET_HWUNIT_ASYNC_MODE` (R291). -/
def execSetHwunitAsyncMode (unit : BitVec 16) (mode : Mode) (s : State) : Host.Outcome State Fault Refusal :=
  outcome (cmdSetHwunitAsyncMode unit.toNat mode s)

/-- `MAIN_FUNCTION_HANDLING` (R280). -/
def execMainFunctionHandling (s : State) : Host.Outcome State Fault Refusal :=
  outcome (cmdMainFunctionHandling s.boundary Ctx.foreground s)

end Sys2Proof.Machine
end

