-- ==== Sys2Proof/Machine/Handlers.lean ====
section
/-! DEFINITION. The meanings of the three events, each its handler started when nothing runs, with the state's own inputs at its
boundaries (30_encoding.md R141, 60_exceptions.md R414). -/

namespace Sys2Proof.Machine

/-- `EV_FIFO` (41_engine_fifo.md R220). -/
def execEvFifo (unit : BitVec 4) (s : State) : Host.Outcome State Fault Refusal :=
  outcome (handleFifo s.boundary Ctx.foreground unit.toNat s)

/-- `EV_DMA_TX` (42_engine_dma.md R258). -/
def execEvDmaTx (unit : BitVec 4) (s : State) : Host.Outcome State Fault Refusal :=
  outcome (handleDmaTx s.boundary Ctx.foreground unit.toNat s)

/-- `EV_DMA_RX` (R260). -/
def execEvDmaRx (unit : BitVec 4) (s : State) : Host.Outcome State Fault Refusal :=
  outcome (handleDmaRx s.boundary Ctx.foreground unit.toNat s)

end Sys2Proof.Machine
end

