-- ==== Sys2Proof/Machine/Dispatch.lean ====
section
/-! DEFINITION. Each instruction's meaning, one arm per constructor. -/

namespace Sys2Proof.Machine

def exec (i : Instr) (s : State) : Host.Outcome State Fault Refusal :=
  match i with
  | .init a0 => Sys2Proof.Machine.execInit a0 s
  | .deinit => Sys2Proof.Machine.execDeinit s
  | .writeIb chan a0 => Sys2Proof.Machine.execWriteIb chan a0 s
  | .readIb chan a0 => Sys2Proof.Machine.execReadIb chan a0 s
  | .setupEb chan a0 a1 a2 => Sys2Proof.Machine.execSetupEb chan a0 a1 a2 s
  | .syncTransmit seq => Sys2Proof.Machine.execSyncTransmit seq s
  | .asyncTransmit seq => Sys2Proof.Machine.execAsyncTransmit seq s
  | .cancel seq => Sys2Proof.Machine.execCancel seq s
  | .getJobResult job => Sys2Proof.Machine.execGetJobResult job s
  | .getSeqResult seq => Sys2Proof.Machine.execGetSeqResult seq s
  | .getStatus => Sys2Proof.Machine.execGetStatus s
  | .getHwunitStatus unit => Sys2Proof.Machine.execGetHwunitStatus unit s
  | .setAsyncMode mode => Sys2Proof.Machine.execSetAsyncMode mode s
  | .setHwunitAsyncMode unit mode => Sys2Proof.Machine.execSetHwunitAsyncMode unit mode s
  | .mainFunctionHandling => Sys2Proof.Machine.execMainFunctionHandling s
  | .evFifo unit => Sys2Proof.Machine.execEvFifo unit s
  | .evDmaTx unit => Sys2Proof.Machine.execEvDmaTx unit s
  | .evDmaRx unit => Sys2Proof.Machine.execEvDmaRx unit s

end Sys2Proof.Machine
end

