-- ==== Sys2Proof/Machine/Fetch.lean ====
section
/-! DEFINITION. What comes next when nothing runs: the next stimulus that is presented, or an event that is due (20_memory.md R110,
R111 (ii); 60_exceptions.md R410, R413; log 18, log 28). The block fetches no instructions of its own (10_state.md R70). -/

namespace Sys2Proof.Machine

/-- The DMA completion event to deliver: a transmit one before a receive one (42_engine_dma.md R262 (P6)). -/
def dueDmaEvent (raised : List Byte) : Option Byte :=
  match raised.find? fun e => decide (kindField e = 2) with
  | some e => some e
  | none => raised.head?

/-- The lowest unit whose interrupt line is up (R410). -/
def dueFifoUnit (s : State) : Option Nat := (List.range s.cfg.numUnits).find? s.fifoIrqLine

/-- The event that is due when nothing is presented (log 28). -/
def dueEvent (s : State) : Option PortWords :=
  match dueDmaEvent s.raised with
  | some e => some (.event e)
  | none =>
    match dueFifoUnit s with
    | some u => some (.event (eventWord 1 (BitVec.ofNat 4 u)))
    | none => none

/-- The next stimulus at rest, with the state after it has been taken from the list of inputs. -/
def nextStimulus (s : State) : Option (Stimulus × State) :=
  match s.inputs with
  | a :: rest => some (a.what, { s with inputs := rest })
  | [] =>
    match dueEvent s with
    | some p => some (.port p, s)
    | none => none

/-- `s` with a stimulus presented next (log 1). -/
def State.present (s : State) (x : Stimulus) : State := { s with inputs := { wait := some 0, what := x } :: s.inputs }

end Sys2Proof.Machine
end

