-- ==== Sys2Proof/Machine/Step.lean ====
section
/-! DEFINITION. One step: the next stimulus is taken and runs to its end, with whatever its boundaries take from the inputs. -/

namespace Sys2Proof.Machine

/-- One step. With nothing presented and nothing due the block waits (10_state.md R71, 70_reset_and_hazards.md R442). -/
def step (s : State) : Host.Outcome State Fault Refusal :=
  match nextStimulus s with
  | none => .next s
  | some (.port p, s') =>
    match decode p with
    | .ok i => exec i (s'.takeWord p)
    | .error _ => .next (reservedWord p (s'.takeWord p))
  | some (x, s') => outcome (agentMove x s')

/-- `s` with the words of an opcode-table row presented next at their port (log 1). -/
def State.withFetchWord (s : State) (nbits w : Nat) : State :=
  match portWordsOfBits nbits w with
  | none => s
  | some p => s.present (.port p)

end Sys2Proof.Machine
end

