-- ==== Sys2Proof/Safety.lean ====
section
/-! DEFINITION. The terms in which claims speak of good states and safe runs: when nothing disturbs an instruction, when a job can
be transferred whole, and the invariants: of 10_state.md R41 and R61, of 45_scheduler.md R352, of the 16-bit counters (00_scope.md R15,
R21), of the unit masks (R19) and of buffer memory. -/

namespace Sys2Proof.Machine

/-- Nothing becomes due while an instruction runs: no input waits, or the first is one for the block at rest (log 18). -/
def State.undisturbed (s : State) : Bool :=
  match s.inputs with
  | [] => true
  | a :: _ => a.wait.isNone

/-- A buffer lies inside the 32-bit address space (10_state.md R70). -/
def Span.inMemory (a : Span) : Bool := decide (a.start + a.bytes ≤ addressCount)

/-- Channel `c` can be transferred: it has frames (41_engine_fifo.md R212), no more than 16 bits count (00_scope.md R15), and its
buffers exist. -/
def State.chanReady (s : State) (c : Nat) : Bool :=
  decide (0 < (s.chanAt c).length) && decide ((s.chanAt c).length ≤ 65535) && ((s.txSpan c).all Span.inMemory && (s.rxSpan c).all Span.inMemory)

/-- Job `j` can be transferred: R212, and its buffers do not overlap (93_implementation_defined.md U11). -/
def State.jobReady (s : State) (j : Nat) : Bool :=
  !(s.cfg.jobAt j).channels.isEmpty && (!s.buffersOverlap j && (s.cfg.jobAt j).channels.all s.chanReady)

/-- The memory part of the invariant: buffer memory has its canonical form. -/
def State.memOk (s : State) : Bool := Memory.wf s.mem

/-- Bits 13 to 31 of a unit mask are 0 (00_scope.md R19). -/
def maskOk (m : Word) : Bool := decide (m.toNat < 2 ^ 13)

/-- `SyncBusyMask` and every `SeqUsedHWUnits[q]` have bits 13 to 31 zero (R19). -/
def State.masksOk (s : State) : Bool := maskOk s.syncBusyMask && s.seqUsedHWUnits.all maskOk

/-- The queue of a unit: `MaxPrio` -1 to 3 (R20); `Head[p] = None` iff `Tail[p] = None` (10_state.md R61 (c)); the list at `MaxPrio`
not empty, those above empty (R61 (b)). -/
def UnitQ.ok (q : UnitQ) : Bool :=
  decide (q.head.length = 4) && (decide (q.tail.length = 4) && (decide (-1 ≤ q.maxPrio) && (decide (q.maxPrio ≤ 3) &&
    ((List.range 4).all fun p =>
      decide ((q.headAt p).isSome = (q.tailAt p).isSome) && (decide ((p : Int) ≤ q.maxPrio) || (q.headAt p).isNone) &&
        (decide ((p : Int) ≠ q.maxPrio) || (q.headAt p).isSome)))))

/-- Every unit's queue is in order, and no configured priority is above 3 (R20, R32). -/
def State.queuesOk (s : State) : Bool :=
  s.unit.all UnitQ.ok && s.cfg.jobs.all fun j => decide (j.priority ≤ 3)

/-- The tables have their sizes (10_state.md R31 to R34, R60, R62), and while the driver is initialised the configuration is well
formed (40_lifecycle_buffers_queries.md R172) and what `INIT` computed from it stands (R75). -/
def State.tablesOk (s : State) : Bool :=
  decide (s.unit.length = 13) && (decide (s.dev.length = 13) && (decide (s.lpspi.length = 13) &&
    (decide (s.chan.length = s.cfg.numChannels) && (decide (s.job.length = s.cfg.numJobs) &&
      (decide (s.seq.length = s.cfg.numSeqs) &&
        (!s.drvInit || (cfgWellFormed s.params s.cfg &&
          (decide (s.seqUsedHWUnits = s.cfg.seqs.map (usedUnitsOf s.params s.cfg)) &&
            decide (s.seqCache = seqCacheOf s.params s.cfg)))))))))

/-- A number that 16 bits hold. -/
def fits16 (n : Nat) : Bool := decide (n ≤ 65535)

/-- The frame counters and cursors of a unit are 16-bit numbers (00_scope.md R15, 10_state.md R51). -/
def Dev.fits (d : Dev) : Bool :=
  fits16 d.txChanIdx && (fits16 d.rxChanIdx && (fits16 d.txRemaining && (fits16 d.rxRemaining &&
    (fits16 d.remainingData && (fits16 d.receivedData && fits16 d.sentFrames)))))

/-- The length of a channel is a 16-bit number (R15). -/
def ChanState.fits (c : ChanState) : Bool := fits16 c.length

/-- The job count and the cursor of a sequence are 16-bit numbers (00_scope.md R21, 10_state.md R50). -/
def SeqState.fits (e : SeqState) : Bool := fits16 e.remainingJobs && fits16 e.cursor

/-- Every counter is a 16-bit number (00_scope.md R15, R21), and so are the configured numbers that counters start from. -/
def State.countersOk (s : State) : Bool :=
  s.chan.all ChanState.fits && (s.dev.all Dev.fits && (s.seq.all SeqState.fits &&
    ((s.cfg.channels.all fun c => fits16 c.maxLength) && s.cfg.seqs.all fun q => fits16 q.jobs.length)))

/-- The jobs of a list of queue `Next` links from `j` on, at most as many as the table has. -/
def chain (jobs : List JobState) : Nat → Option Nat → List Nat
  | 0, _ => []
  | _ + 1, none => []
  | n + 1, some j => j :: chain jobs n (tget jobs j).next

/-- The list of level `p` of unit `u` (10_state.md R60). -/
def State.level (s : State) (u p : Nat) : List Nat := chain s.job s.job.length ((s.unitAt u).headAt p)

/-- The jobs that wait on unit `u`. -/
def State.waiting (s : State) (u : Nat) : List Nat := (List.range 4).flatMap (s.level u)

/-- The list of level `p` of unit `u` ends at its tail, and holds jobs of this unit and level that are `QUEUED` and locked
(10_state.md R61 (d), 45_scheduler.md R340). -/
def State.levelOk (s : State) (u p : Nat) : Bool :=
  decide ((s.level u p).getLast? = (s.unitAt u).tailAt p) &&
    ((s.level u p).getLast?.all fun j => (s.jobAt j).next.isNone) &&
    (s.level u p).all fun j => decide (j < s.cfg.numJobs) && (decide (s.unitOf j = u) && (decide ((s.cfg.jobAt j).priority = p) &&
      (decide ((s.jobAt j).result = .queued) && (s.jobAt j).owner.isSome)))

/-- Unit `u` between two instructions. `BUSY` iff a job transfers on it; nothing waits on an idle one (10_state.md R61 (a)); the job in
flight is its one `PENDING` job (45_scheduler.md R352), locked; a synchronous unit is idle and its lists are empty (R61 (e)). -/
def State.unitOk (s : State) (u : Nat) : Bool :=
  ((List.range 4).all (s.levelOk u)) &&
    (match (s.devAt u).curJob with
      | none => decide ((s.unitAt u).status = .idle) && (s.waiting u).isEmpty
      | some j => decide ((s.unitAt u).status = .busy) && (!(s.cfg.unitAt u).isSync && (decide (j < s.cfg.numJobs) &&
          (decide (s.unitOf j = u) && (decide ((s.jobAt j).result = .pending) && (s.jobAt j).owner.isSome))))) &&
    (List.range s.cfg.numJobs).all fun j =>
      decide (s.unitOf j = u → (s.jobAt j).result = .pending → (s.devAt u).curJob = some j)

/-- Job `j` is in flight or waits in a list of its unit. -/
def State.underway (s : State) (j : Nat) : Bool :=
  decide ((s.devAt (s.unitOf j)).curJob = some j) || (s.waiting (s.unitOf j)).contains j

/-- Sequence `q` is on its way (45_scheduler.md R330, R345): no job named twice, the count of jobs left and the cursor agree, the
current job is underway, it and the later ones are locked by `q`, the later ones `QUEUED` and not underway, the finished ones
not locked by `q`. -/
def State.running (s : State) (q : Nat) : Bool :=
  let js := (s.cfg.seqAt q).jobs
  let k := (s.seqAt q).cursor
  decide js.Nodup && (decide (k < js.length) && (decide ((s.seqAt q).remainingJobs + k = js.length) &&
    ((js.take k).all (fun j => decide ((s.jobAt j).owner ≠ some q)) &&
      ((js.drop k).all (fun j => decide ((s.jobAt j).owner = some q)) &&
        (((js.drop k).head?.all s.underway) &&
          (js.drop (k + 1)).all fun j => decide ((s.jobAt j).result = .queued) && !s.underway j)))))

/-- Sequence `q` between two instructions: `PENDING` only while it is on its way on asynchronous units; after a `CANCEL` either still on
its way or with no job locked (46_cancel.md R374, R380). -/
def State.sequenceOk (s : State) (q : Nat) : Bool :=
  match (s.seqAt q).result with
  | .pending => !s.seqIsSync q && s.running q
  | .cancelled => !s.seqIsSync q && (s.running q || (List.range s.cfg.numJobs).all fun j => decide ((s.jobAt j).owner ≠ some q))
  | .ok => true
  | .failed => true

/-- The lock invariant (10_state.md R41): the owner of a job is a sequence that names it and is `PENDING` or `CANCELLED`. -/
def State.lockOk (s : State) (j : Nat) : Bool :=
  match (s.jobAt j).owner with
  | none => true
  | some q => decide (q < s.cfg.numSeqs) && ((s.cfg.seqAt q).jobs.contains j &&
      (decide ((s.seqAt q).result = .pending) || decide ((s.seqAt q).result = .cancelled)))

/-- Locks, queues and occupancy between two instructions while the driver is initialised (10_state.md R41, R61; 45_scheduler.md R352);
no job waits twice (R61 (d)). -/
def State.schedOk (s : State) : Bool :=
  !s.drvInit || ((List.range s.cfg.numUnits).all s.unitOk && (((List.range s.cfg.numUnits).flatMap s.waiting).Nodup &&
    ((List.range s.cfg.numJobs).all s.lockOk && (List.range s.cfg.numSeqs).all s.sequenceOk)))

/-- The five parts that every step keeps on every machine. -/
def State.inv (s : State) : Bool := s.memOk && (s.masksOk && (s.queuesOk && (s.tablesOk && s.countersOk)))

/-- No procedure can start between two segments: nothing but moves of other hardware and stores of the host waits, or commands
where they do not nest (20_memory.md R110). -/
def State.noProcedureWaits (s : State) : Bool :=
  s.inputs.all fun a =>
    match a.what with
    | .port (.command _ _ _ _) => !s.params.hostPreemption
    | .port (.event _) => false
    | _ => true

/-- A peripheral after the register writes of a list, in order. -/
def Lpspi.writes (fifoSize free : Nat) (p : Lpspi) (ws : List RegWrite) : Lpspi := ws.foldl (fun q w => q.write fifoSize free w) p

/-- What `raise e` appends to the trace in the command of opcode `op` (60_exceptions.md R391). -/
def State.errors (s : State) (op : Byte) (e : ErrName) : List Entry := if s.params.devErrorDetect = true then [.err op e] else []

/-- `s` after a command that sends out `es` and its response `v`, and does nothing else. -/
def State.says (s : State) (es : List Entry) (v : Word) : State := { s with trace := s.trace ++ es ++ [.rsp v] }

/-- A notification, if the configuration has it. -/
def notice (present : Bool) (kind : NotifKind) (id : Nat) : List Entry := if present = true then [.notif kind id] else []

/-- What `LpspiInit(u)` sends out (40_lifecycle_buffers_queries.md R173). -/
def initEntries (c : Cfg) (u : Nat) : List Entry :=
  .regWrite u (.cspol (idlePolarity u c.jobs)) ::
    if (c.unitAt u).dmaUsed = true then [.dmaBind (c.unitAt u).dmaTxCh (.txData u), .dmaBind (c.unitAt u).dmaRxCh (.rxData u)]
    else []

/-- The register writes of a trace (00_scope.md R13: "equal at the register port"). -/
def regWritesOf : List Entry → List (Nat × RegWrite)
  | [] => []
  | .regWrite u w :: rest => (u, w) :: regWritesOf rest
  | _ :: rest => regWritesOf rest

/-- The `TXCMD` writes of a trace, each as its `CONT` bit, and the `TXDATA` writes between them, each as `none`
(41_engine_fifo.md R227). -/
def wireWrites : List Entry → List (Option Bool)
  | [] => []
  | .regWrite _ (.txcmd c) :: rest => some c.cont :: wireWrites rest
  | .regWrite _ (.txdata _) :: rest => none :: wireWrites rest
  | _ :: rest => wireWrites rest

/-- Byte `x` lies outside the place of the frame that channel `c` keeps at index `i`, if it keeps its frames
(20_memory.md R95). -/
def State.outsideFrame (s : State) (c i x : Nat) : Prop :=
  ∀ p, (s.chanAt c).discardRx = false → (s.chanAt c).rxPtr = some p →
    x < frameAddr p (s.widthOf c) i ∨ frameAddr p (s.widthOf c) i + bpf (s.widthOf c) ≤ x

/-- Memory `m` is `s.mem` with value `v` stored as frame `i` of channel `c` as 20_memory.md R95 says: cut to the frame's width,
little-endian, every other byte as before. -/
def State.storesFrame (s : State) (m : Memory) (c i : Nat) (v : Word) : Prop :=
  (∀ p, (s.chanAt c).discardRx = false → (s.chanAt c).rxPtr = some p →
    memRead m (frameAddr p (s.widthOf c) i) (bpf (s.widthOf c)) = v.toNat % 2 ^ (s.widthOf c).bits) ∧
  ∀ x, s.outsideFrame c i x → readByte m x = readByte s.mem x

/-- The index of the next frame to send on unit `u` (41_engine_fifo.md R217). -/
def State.txIndex (s : State) (u c : Nat) : Nat := (s.chanAt c).length - (s.devAt u).txRemaining
/-- The index of the next frame to receive on unit `u` (R223). -/
def State.rxIndex (s : State) (u c : Nat) : Nat := (s.chanAt c).length - (s.devAt u).rxRemaining

/-- Master FIFO unit `u` runs job `j`, in the middle of channels `cr` (receive) and `ct` (transmit): at least two frames are left
each way, the buffers exist, a received frame waits and the transmit FIFO has room. -/
def State.midChannel (s : State) (u j cr ct : Nat) : Prop :=
  (s.cfg.unitAt u).slave = false ∧ (s.devAt u).curJob = some j ∧
  (s.devAt u).txDone = false ∧ (s.devAt u).rxDone = false ∧
  cr = s.chanOf j (s.devAt u).rxChanIdx ∧ ct = s.chanOf j (s.devAt u).txChanIdx ∧
  1 < (s.devAt u).rxRemaining ∧ (s.devAt u).rxRemaining ≤ (s.chanAt cr).length ∧
  1 < (s.devAt u).txRemaining ∧ (s.devAt u).txRemaining ≤ (s.chanAt ct).length ∧
  s.chanReady cr = true ∧ s.chanReady ct = true ∧ (s.devAt u).sentFrames < 65535 ∧ (s.lpspiAt u).txCount < s.params.fifoSize

/-- One frame each way (41_engine_fifo.md R221): `v` taken from the receive FIFO and stored for channel `cr`, then `w`, the next
frame of channel `ct`, written to `TXDATA`; the counters follow, and the block sends out `es`. -/
def State.movesOneFrame (s t : State) (u cr ct : Nat) (v w : Word) (rest : List Word) (es : List Entry) : Prop :=
  s.storesFrame t.mem cr (s.rxIndex u cr) v ∧
  txFrameValue t ct (s.widthOf ct) (s.txIndex u ct) = .ok w ∧
  t = { s with
    mem := t.mem
    dev := s.dev.set u { s.devAt u with
      rxRemaining := (s.devAt u).rxRemaining - 1, txRemaining := (s.devAt u).txRemaining - 1
      sentFrames := (s.devAt u).sentFrames + 1 }
    lpspi := s.lpspi.set u { s.lpspiAt u with rxFifo := rest, txFifo := (s.lpspiAt u).txFifo ++ [.frame w] }
    trace := s.trace ++ es }

/-- The transmit descriptor of channel `c` reads from `src` and advances by `inc` (42_engine_dma.md R254). -/
def State.sendsFrom (s : State) (c : Nat) (src : DmaEnd) (inc : Nat) : Prop :=
  ((s.chanAt c).useDefault = true ∧ src = .defaultWord c ∧ inc = 0) ∨
  ∃ p, (s.chanAt c).useDefault = false ∧ (s.chanAt c).txPtr = some p ∧ src = .mem p.toNat ∧ inc = bpf (s.widthOf c)

/-- The receive descriptor of channel `c` stores at `dst` and advances by `inc` (R256). -/
def State.keepsAt (s : State) (c : Nat) (dst : DmaEnd) (inc : Nat) : Prop :=
  (((s.chanAt c).discardRx = true ∨ (s.chanAt c).rxPtr = none) ∧ dst = .discardWord ∧ inc = 0) ∨
  ∃ p, (s.chanAt c).discardRx = false ∧ (s.chanAt c).rxPtr = some p ∧ dst = .mem p.toNat ∧ inc = bpf (s.widthOf c)

/-- A DMA channel whose descriptor has just been written and started (R251). -/
def DmaChan.armed (t : Tcd) : DmaChan :=
  { tcd := t, curSrc := t.src, curDst := t.dst, iterLeft := t.iter, active := true, done := false }

/-- Neither DMA channel of unit `u` is `ch`. -/
def State.otherChannel (s : State) (u ch : Nat) : Prop := ch ≠ (s.cfg.unitAt u).dmaTxCh ∧ ch ≠ (s.cfg.unitAt u).dmaRxCh

/-- A pass of `MAIN_FUNCTION_HANDLING` polls unit `u` (43_polling_and_mode.md R280). -/
def State.toPoll (s : State) (u : Nat) : Prop :=
  (s.unitAt u).status = .busy ∧ (s.cfg.unitAt u).isSync = false ∧ (s.devAt u).asyncMode = .polling ∧ (s.devAt u).curJob ≠ none

/-- A pass polls unit `u` and no other. -/
def State.pollsOnly (s : State) (u : Nat) : Prop :=
  s.params.level ≠ .syncOnly ∧ s.drvInit = true ∧ u < s.cfg.numUnits ∧ s.toPoll u ∧
  ∀ u', u' < s.cfg.numUnits → u' ≠ u → ¬ s.toPoll u'

/-- Slave unit `u` runs job `j`, in the middle of channels `cr` (receive) and `ct` (transmit): a dispatch takes `m` frames and refills
`r` (41_engine_fifo.md R222), and more are left each way; the buffers exist. -/
def State.midSlave (s : State) (u j cr ct m r : Nat) : Prop :=
  (s.cfg.unitAt u).slave = true ∧ (s.devAt u).curJob = some j ∧
  (s.devAt u).txDone = false ∧ (s.devAt u).rxDone = false ∧
  cr = s.chanOf j (s.devAt u).rxChanIdx ∧ ct = s.chanOf j (s.devAt u).txChanIdx ∧
  m = min (s.lpspiAt u).rxFifo.length ((s.cfg.channelAt (s.chanOf j 0)).wmRx + 1) ∧
  m < (s.devAt u).rxRemaining ∧ (s.devAt u).rxRemaining ≤ (s.chanAt cr).length ∧
  r = min (s.params.fifoSize - (s.lpspiAt u).txCount) (s.devAt u).txRemaining ∧
  r < (s.devAt u).txRemaining ∧ (s.devAt u).txRemaining ≤ (s.chanAt ct).length ∧
  s.chanReady cr = true ∧ s.chanReady ct = true ∧ (s.devAt u).sentFrames + r ≤ 65535

/-- A dispatch on a slave unit (R222): the `m` oldest received frames stored for channel `cr`, then the next `r` frames of channel
`ct`, `ws`, written to `TXDATA`; the counters follow, and the block sends out `es`. -/
def State.movesSlaveFrames (s t : State) (u cr ct m r : Nat) (ws : Nat → Word) (es : List Entry) : Prop :=
  (∀ i p, i < m → (s.chanAt cr).discardRx = false → (s.chanAt cr).rxPtr = some p →
    memRead t.mem (frameAddr p (s.widthOf cr) (s.rxIndex u cr + i)) (bpf (s.widthOf cr)) =
      ((s.lpspiAt u).rxFifo.getD i 0).toNat % 2 ^ (s.widthOf cr).bits) ∧
  (∀ x, (∀ i, i < m → s.outsideFrame cr (s.rxIndex u cr + i) x) → readByte t.mem x = readByte s.mem x) ∧
  (∀ i, i < r → txFrameValue t ct (s.widthOf ct) (s.txIndex u ct + i) = .ok (ws i)) ∧
  t = { s with
    mem := t.mem
    dev := s.dev.set u { s.devAt u with
      rxRemaining := (s.devAt u).rxRemaining - m, txRemaining := (s.devAt u).txRemaining - r
      sentFrames := (s.devAt u).sentFrames + r }
    lpspi := s.lpspi.set u { s.lpspiAt u with
      rxFifo := (s.lpspiAt u).rxFifo.drop m
      txFifo := (s.lpspiAt u).txFifo ++ (List.range r).map fun i => .frame (ws i) }
    trace := s.trace ++ es }

/-- A step that neither faults nor is refused. -/
def answersNext (o : Host.Outcome State Fault Refusal) : Bool :=
  match o with
  | .next _ => true
  | .fault _ => false
  | .refused _ => false

end Sys2Proof.Machine
end

