-- ==== Sys2Proof/Certificates/Slice0/Obligations.lean ====
section
/-! DEFINITION. The statements for the provers. `s.says es v` is `s` with the entries `es` and the response `v` appended to its
trace and nothing else changed; `s.undisturbed` says that no input becomes due while the instruction runs (log 18). A statement
whose basis is `derived` rests on rules that the spec marks as its own decisions or derivations, or states only parts of the rules its
docstring names; one that rests on a choice of the model names its log entry. -/

open Sys2Proof Sys2Proof.Machine

/-! ## Encodings and the step -/

/-- The decoder reads back what the encoder wrote, for every instruction the encoding admits (30_encoding.md R131, R136, R140,
R141). -/
def Obligations.DecodeAfterEncode : Prop := ∀ i : Instr, i.wf = true → decode (encode i) = .ok i

/-- Every row of the opcode map, by its match and mask (30_encoding.md R136; operands by R131, R133, R137). -/
def Obligations.OpcodeMapDecodes : Prop := ∀ cmd a0 a1 a2 : Word,
  (cmd &&& 0xFFFFFFFF = 0x01000000 → decode (.command cmd a0 a1 a2) = .ok (.init a0)) ∧
  (cmd &&& 0xFFFFFFFF = 0x02000000 → decode (.command cmd a0 a1 a2) = .ok .deinit) ∧
  (cmd &&& 0xFFFF0000 = 0x03000000 → decode (.command cmd a0 a1 a2) = .ok (.writeIb (cmd.setWidth 16) a0)) ∧
  (cmd &&& 0xFFFF0000 = 0x04000000 → decode (.command cmd a0 a1 a2) = .ok (.readIb (cmd.setWidth 16) a0)) ∧
  (cmd &&& 0xFFFF0000 = 0x05000000 → decode (.command cmd a0 a1 a2) = .ok (.setupEb (cmd.setWidth 16) a0 a1 a2)) ∧
  (cmd &&& 0xFFFF0000 = 0x06000000 → decode (.command cmd a0 a1 a2) = .ok (.syncTransmit (cmd.setWidth 16))) ∧
  (cmd &&& 0xFFFF0000 = 0x07000000 → decode (.command cmd a0 a1 a2) = .ok (.asyncTransmit (cmd.setWidth 16))) ∧
  (cmd &&& 0xFFFF0000 = 0x08000000 → decode (.command cmd a0 a1 a2) = .ok (.cancel (cmd.setWidth 16))) ∧
  (cmd &&& 0xFFFF0000 = 0x09000000 → decode (.command cmd a0 a1 a2) = .ok (.getJobResult (cmd.setWidth 16))) ∧
  (cmd &&& 0xFFFF0000 = 0x0A000000 → decode (.command cmd a0 a1 a2) = .ok (.getSeqResult (cmd.setWidth 16))) ∧
  (cmd &&& 0xFFFFFFFF = 0x0B000000 → decode (.command cmd a0 a1 a2) = .ok .getStatus) ∧
  (cmd &&& 0xFFFF0000 = 0x0C000000 → decode (.command cmd a0 a1 a2) = .ok (.getHwunitStatus (cmd.setWidth 16))) ∧
  (cmd &&& 0xFFFEFFFF = 0x0D000000 →
    decode (.command cmd a0 a1 a2) = .ok (.setAsyncMode (if cmd.getLsbD 16 = true then .interrupt else .polling))) ∧
  (cmd &&& 0xFFFE0000 = 0x0E000000 →
    decode (.command cmd a0 a1 a2) =
      .ok (.setHwunitAsyncMode (cmd.setWidth 16) (if cmd.getLsbD 16 = true then .interrupt else .polling))) ∧
  (cmd &&& 0xFFFFFFFF = 0x0F000000 → decode (.command cmd a0 a1 a2) = .ok .mainFunctionHandling)

/-- Words of 95_test_vectors.md V1 decode to the instructions they stand for. -/
def Obligations.WordsOfTheSpecDecode : Prop :=
  decodeTableWord 32 0x05000001 = some (.setupEb 1 0 0 0) ∧
  decodeTableWord 32 0x0700FFFF = some (.asyncTransmit 0xFFFF) ∧
  decodeTableWord 32 0x0D010000 = some (.setAsyncMode .interrupt) ∧
  decodeTableWord 32 0x0E010001 = some (.setHwunitAsyncMode 1 .interrupt) ∧
  decodeTableWord 8 0x1C = some (.evFifo 12) ∧ decodeTableWord 8 0x21 = some (.evDmaTx 1) ∧
  decodeTableWord 8 0x31 = some (.evDmaRx 1) ∧
  decodeTableWord 32 0x07800000 = none ∧ decodeTableWord 32 0x0B000001 = none ∧ decodeTableWord 8 0x1D = none

/-- A step at which a word stands at its port and decodes to an instruction runs that instruction; an event that the DMA engine
raised is taken from the raised ones. The second clause is the same for a word put there by `withFetchWord`. -/
def Obligations.StepRunsTheDecodedInstruction : Prop :=
  (∀ (s s' : State) (p : PortWords) (i : Instr), nextStimulus s = some (.port p, s') → decode p = .ok i →
    step s = exec i (s'.takeWord p)) ∧
  (∀ (s : State) (nbits w : Nat) (p : PortWords) (i : Instr), portWordsOfBits nbits w = some p → decode p = .ok i →
    step (s.withFetchWord nbits w) = exec i (s.takeWord p)) ∧
  (∀ (s : State) (cmd a0 a1 a2 : Word), s.takeWord (.command cmd a0 a1 a2) = s) ∧
  (∀ (s : State) (evt : Byte), s.takeWord (.event evt) = { s with raised := s.raised.erase evt })

/-- A reserved command word (30_encoding.md R145; 00_scope.md R8 for the variants) reports and responds, and nothing else; a reserved
event word (R146) has no effect. -/
def Obligations.ReservedWords : Prop := (∀ (s s' : State) (cmd a0 a1 a2 : Word),
  nextStimulus s = some (.port (.command cmd a0 a1 a2), s') →
  (opField cmd = 0x00 ∨ 0x10 ≤ (opField cmd).toNat ∨ zField cmd ≠ 0 ∨
    (modeField cmd ≠ 0 ∧ opField cmd ≠ 0x0D ∧ opField cmd ≠ 0x0E) ∨
    (idField cmd ≠ 0 ∧
      (opField cmd = 0x01 ∨ opField cmd = 0x02 ∨ opField cmd = 0x0B ∨ opField cmd = 0x0D ∨ opField cmd = 0x0F)) ∨
    (s'.params.level = .syncOnly ∧
      (opField cmd = 0x07 ∨ opField cmd = 0x08 ∨ opField cmd = 0x0D ∨ opField cmd = 0x0E ∨ opField cmd = 0x0F)) ∨
    (s'.params.level = .asyncOnly ∧ opField cmd = 0x06)) →
  step s = .next (s'.says (s'.errors (opField cmd) .reservedCmd) 1)) ∧
  (∀ (s s' : State) (evt : Byte), nextStimulus s = some (.port (.event evt), s') →
    (kindField evt = 0 ∨ 4 ≤ (kindField evt).toNat ∨ 13 ≤ (unitField evt).toNat) →
    step s = .next { s' with raised := s'.raised.erase evt })


/-- A spurious event does nothing (60_exceptions.md R412), and in the synchronous-only variant no event does anything: there each is
reserved (00_scope.md R8, 30_encoding.md R146). -/
def Obligations.SpuriousEventsDoNothing : Prop := ∀ (s : State) (unit : BitVec 4),
  (s.params.level = .syncOnly ∨ s.drvInit = false ∨ s.cfg.numUnits ≤ unit.toNat ∨ (s.cfg.unitAt unit.toNat).isSync = true ∨
      (s.devAt unit.toNat).asyncMode ≠ .interrupt ∨ (s.devAt unit.toNat).curJob = none →
    exec (.evFifo unit) s = .next s ∧ exec (.evDmaTx unit) s = .next s ∧ exec (.evDmaRx unit) s = .next s) ∧
  ((s.cfg.unitAt unit.toNat).dmaUsed = true ∨ (s.devAt unit.toNat).irqEnabled = false → exec (.evFifo unit) s = .next s) ∧
  ((s.cfg.unitAt unit.toNat).dmaUsed = false ∨ (s.dmaAt (s.cfg.unitAt unit.toNat).dmaTxCh).done = false →
    exec (.evDmaTx unit) s = .next s) ∧
  ((s.cfg.unitAt unit.toNat).dmaUsed = false ∨ (s.dmaAt (s.cfg.unitAt unit.toNat).dmaRxCh).done = false →
    exec (.evDmaRx unit) s = .next s)

/-! ## Reset and what every step keeps -/

/-- At power-on `DrvInit` is false and every unit is `UNINIT` (10_state.md R71); `GET_STATUS` answers `UNINIT` (R186), and with nothing
presented the block waits. The invariants that the next statements say every step keeps hold there: that the tables are empty and
every `MaxPrio` is -1 (log 4) and that buffer memory lists nothing (log 8) is the model's choice. -/
def Obligations.PowerOn : Prop :=
  State.reset.drvInit = false ∧ (∀ u, u < 13 → (State.reset.unitAt u).status = .uninit) ∧
  exec .getStatus State.reset = .next (State.reset.says [] 0) ∧ step State.reset = .next State.reset ∧
  State.reset.inv = true ∧ State.reset.schedOk = true

/-- Every step keeps buffer memory in its canonical form. -/
def Obligations.StepKeepsMemoryCanonical : Prop := ∀ s t : State, s.memOk = true → step s = .next t → t.memOk = true

/-- Every step keeps bits 13 to 31 of the unit masks zero (00_scope.md R19). -/
def Obligations.StepKeepsUnitMasks : Prop := ∀ s t : State, s.masksOk = true → step s = .next t → t.masksOk = true

/-- Every step keeps the queues in order (00_scope.md R20, 10_state.md R61 (b), (c)). -/
def Obligations.StepKeepsQueues : Prop := ∀ s t : State, s.queuesOk = true → step s = .next t → t.queuesOk = true

/-- Every step keeps the tables' sizes, and while the driver is initialised a well-formed configuration, the used-units masks and the
sequence cache that `INIT` computed from it (10_state.md R36, R75). -/
def Obligations.StepKeepsTables : Prop := ∀ s t : State, s.tablesOk = true → step s = .next t → t.tablesOk = true

/-- No step writes a parameter (00_scope.md R9), and the trace is only ever appended to (R13). -/
def Obligations.StepKeepsParameters : Prop := ∀ s t : State, step s = .next t →
  t.params = s.params ∧ ∃ es, t.trace = s.trace ++ es

/-- Every step keeps every counter a 16-bit number (00_scope.md R15, R21; 10_state.md R50, R51). -/
def Obligations.StepKeepsCounters : Prop := ∀ s t : State, s.countersOk = true → step s = .next t → t.countersOk = true

/-- Every step in which no further command or event comes between two segments keeps the scheduling in order: the lock invariant
(10_state.md R41), the single occupancy of a unit (45_scheduler.md R352), `BUSY` exactly while a job transfers, each waiting job once
and in the list of its unit and level, nothing on a synchronous unit (10_state.md R61 (a), (d), (e)), and what ties a sequence to its
jobs. Other hardware and the host's stores may move at any point. -/
def Obligations.StepKeepsScheduling : Prop := ∀ s t : State,
  s.tablesOk = true → s.queuesOk = true → s.schedOk = true →
  (∀ x s', nextStimulus s = some (x, s') → s'.noProcedureWaits = true) →
  step s = .next t → t.schedOk = true

/-! ## Life cycle -/

/-- A successful `INIT` (40_lifecycle_buffers_queries.md R171, R173; 10_state.md R72 to R75): every table, the register writes and
DMA bindings in order, the idle polarity of a unit bit by bit, and what stays: a DMA channel that no unit binds is as before. `CmdWord` holds no value then: nothing is said of it. -/
def Obligations.InitWritesTheTables : Prop := ∀ (s : State) (a0 : Word) (c : Cfg),
  s.undisturbed = true → s.drvInit = false → a0 ≠ 0 → lookupConfig s.hostConfigs a0 = some c →
  cfgWellFormed s.params c = true → s.unit.length = 13 → s.dev.length = 13 → s.lpspi.length = 13 →
  ∃ t, exec (.init a0) s = .next t ∧
    t.drvInit = true ∧ t.cfg = c ∧ t.syncBusyMask = 0 ∧
    (∀ u, u < c.numUnits →
      t.unitAt u = { status := .idle, head := [none, none, none, none], tail := [none, none, none, none], maxPrio := -1 } ∧
      t.devAt u =
        { base := s.params.baseAt u, cmdWord := (t.devAt u).cmdWord, asyncMode := .polling, curJob := none, txChanIdx := 0
          rxChanIdx := 0, txRemaining := 0, rxRemaining := 0, remainingData := 0, receivedData := 0, sentFrames := 0
          txDone := false, rxDone := false, contCSActive := false, irqEnabled := false } ∧
      t.lpspiAt u = { s.lpspiAt u with cspol := idlePolarity u c.jobs } ∧
      ∀ b, b < 32 → ((idlePolarity u c.jobs).getLsbD b = true ↔
        ∃ j ∈ c.jobs, j.hwUnit = u ∧ j.dev.csIdlePol.getLsbD b = true)) ∧
    (∀ u, c.numUnits ≤ u → t.unitAt u = s.unitAt u ∧ t.devAt u = s.devAt u ∧ t.lpspiAt u = s.lpspiAt u) ∧
    t.chan = c.channels.map (fun k =>
      if k.bufKind = .ib then
        { useDefault := true, discardRx := false, length := k.maxLength, txPtr := some k.ibTxAddr, rxPtr := some k.ibRxAddr }
      else { useDefault := true, discardRx := true, length := 0, txPtr := none, rxPtr := none }) ∧
    t.job = c.jobs.map (fun _ => { result := .ok, owner := none, next := none }) ∧
    t.seq = c.seqs.map (fun _ => { result := .ok, remainingJobs := 0, cursor := 0 }) ∧
    t.seqUsedHWUnits = c.seqs.map (usedUnitsOf s.params c) ∧ t.seqCache = seqCacheOf s.params c ∧
    (∀ u, u < c.numUnits → (c.unitAt u).dmaUsed = true →
      t.dmaAt (c.unitAt u).dmaTxCh = { s.dmaAt (c.unitAt u).dmaTxCh with
        tcd := { (s.dmaAt (c.unitAt u).dmaTxCh).tcd with dst := .txData u, dstInc := 0 }, active := false, done := false } ∧
      t.dmaAt (c.unitAt u).dmaRxCh = { s.dmaAt (c.unitAt u).dmaRxCh with
        tcd := { (s.dmaAt (c.unitAt u).dmaRxCh).tcd with src := .rxData u, srcInc := 0 }, active := false, done := false }) ∧
    (∀ ch, (∀ u, u < c.numUnits → (c.unitAt u).dmaUsed = true → ch ≠ (c.unitAt u).dmaTxCh ∧ ch ≠ (c.unitAt u).dmaRxCh) →
      t.dmaAt ch = s.dmaAt ch) ∧
    t.trace = s.trace ++ (List.range c.numUnits).flatMap (initEntries c) ++ [.rsp 0] ∧
    t.mem = s.mem ∧ t.params = s.params ∧ t.hostConfigs = s.hostConfigs ∧ t.inputs = s.inputs ∧ t.raised = s.raised ∧
    t.discardWord = s.discardWord ∧ t.freeCount = s.freeCount

/-- The used-units mask of a sequence (44_sync_transmit.md R301), bit by bit. -/
def Obligations.UsedUnitsMask : Prop := ∀ (p : Params) (cfg : Cfg) (q : SeqCfg),
  (p.concurrentSync = true →
    ∀ u, u < 32 → ((usedUnitsOf p cfg q).getLsbD u = true ↔ ∃ j ∈ q.jobs, (cfg.jobAt j).hwUnit = u)) ∧
  (p.concurrentSync = false → cfg.numUnits ≤ 13 →
    ∀ u, u < 32 → ((usedUnitsOf p cfg q).getLsbD u = true ↔ u < cfg.numUnits)) ∧
  (cfgWellFormed p cfg = true → q ∈ cfg.seqs → ∀ u, 13 ≤ u → (usedUnitsOf p cfg q).getLsbD u = false)

/-- The sequence cache that `INIT` fills (44_sync_transmit.md R302): exact entries of one-job sequences, in ascending order, within
both pools; a one-job sequence is left out only where the pools had no room for it. -/
def Obligations.SequenceCacheFilled : Prop := ∀ (p : Params) (cfg : Cfg),
  ((cfg.seqPool = 0 ∨ cfg.chanPool = 0) → seqCacheOf p cfg = []) ∧
  (∀ e ∈ seqCacheOf p cfg, e.seq < cfg.numSeqs ∧
    ∃ j, (cfg.seqAt e.seq).jobs = [j] ∧ e = cacheEntry p cfg e.seq j) ∧
  ((seqCacheOf p cfg).map CacheEntry.seq).Pairwise (· < ·) ∧
  (seqCacheOf p cfg).length ≤ cfg.seqPool ∧
  ((seqCacheOf p cfg).map fun e => e.chans.length).sum ≤ cfg.chanPool ∧
  (cfg.seqPool ≠ 0 → cfg.chanPool ≠ 0 → ∀ q j, q < cfg.numSeqs → (cfg.seqAt q).jobs = [j] →
    (∀ e ∈ seqCacheOf p cfg, e.seq ≠ q) →
    cfg.seqPool ≤ ((seqCacheOf p cfg).filter fun e => decide (e.seq < q)).length ∨
    cfg.chanPool < (((seqCacheOf p cfg).filter fun e => decide (e.seq < q)).map fun e => e.chans.length).sum +
      (cfg.jobAt j).channels.length)

/-- The checks of `INIT`, in order (60_exceptions.md R398): a failed one reports, responds 0 and writes nothing; an oversized
configuration and one with an empty job or sequence are among those that are not well formed. `INIT` responds 0 in every case. What
`cfgWellFormed` holds beyond R35 and 40_lifecycle_buffers_queries.md R172, the ranges of the fields, is the model's reading (log 22). -/
def Obligations.InitRefusesBadConfigurations : Prop :=
  (∀ (s : State) (a0 : Word),
    (s.drvInit = true → exec (.init a0) s = .next (s.says (s.errors 0x01 .alreadyInitialized) 0)) ∧
    (s.drvInit = false → a0 = 0 → exec (.init a0) s = .next (s.says (s.errors 0x01 .paramPointer) 0)) ∧
    ∀ c, s.drvInit = false → a0 ≠ 0 → lookupConfig s.hostConfigs a0 = some c → cfgWellFormed s.params c = false →
      exec (.init a0) s = .next (s.says (s.errors 0x01 .paramConfig) 0)) ∧
  (∀ (p : Params) (c : Cfg),
    (13 < c.numUnits ∨ p.maxChannels < c.numChannels ∨ p.maxJobs < c.numJobs ∨ p.maxSequences < c.numSeqs ∨
      (∃ j ∈ c.jobs, j.channels = []) ∨ (∃ q ∈ c.seqs, q.jobs = [])) → cfgWellFormed p c = false) ∧
  (∀ (s t : State) (a0 : Word), exec (.init a0) s = .next t → ∃ es, t.trace = es ++ [.rsp 0])

/-- `DEINIT` (40_lifecycle_buffers_queries.md R174). What the fields that hold no value afterwards keep is the model's choice
(log 20). -/
def Obligations.DeinitCases : Prop := ∀ s : State, s.drvInit = true →
  ((s.syncBusyMask ≠ 0 ∨ ∃ u, u < s.cfg.numUnits ∧ (s.unitAt u).status = .busy) → exec .deinit s = .next (s.says [] 1)) ∧
  (s.syncBusyMask = 0 → (∀ u, u < s.cfg.numUnits → (s.unitAt u).status ≠ .busy) →
    ∃ t, exec .deinit s = .next t ∧
      t = { s with drvInit := false, unit := t.unit, trace := s.trace ++ [.rsp 0] } ∧
      (∀ u, u < s.cfg.numUnits → u < s.unit.length → t.unitAt u = { s.unitAt u with status := .uninit }) ∧
      (∀ u, s.cfg.numUnits ≤ u → t.unitAt u = s.unitAt u) ∧
      exec .getStatus t = .next (t.says [] 0))

/-- A command before `INIT` (60_exceptions.md R394). -/
def Obligations.UninitializedCommandsFail : Prop :=
  (∀ (s : State) (k : BitVec 16) (a0 a1 a2 : Word) (m : Mode), s.drvInit = false →
    exec .deinit s = .next (s.says (s.errors 0x02 .uninit) 1) ∧
    exec (.writeIb k a0) s = .next (s.says (s.errors 0x03 .uninit) 1) ∧
    exec (.readIb k a0) s = .next (s.says (s.errors 0x04 .uninit) 1) ∧
    exec (.setupEb k a0 a1 a2) s = .next (s.says (s.errors 0x05 .uninit) 1) ∧
    (s.params.level ≠ .asyncOnly → exec (.syncTransmit k) s = .next (s.says (s.errors 0x06 .uninit) 1)) ∧
    (s.params.level ≠ .syncOnly →
      exec (.asyncTransmit k) s = .next (s.says (s.errors 0x07 .uninit) 1) ∧
      exec (.cancel k) s = .next (s.says (s.errors 0x08 .uninit) 0) ∧
      exec (.setAsyncMode m) s = .next (s.says (s.errors 0x0D .uninit) 1) ∧
      exec (.setHwunitAsyncMode k m) s = .next (s.says (s.errors 0x0E .uninit) 1) ∧
      exec .mainFunctionHandling s = .next (s.says [] 0)) ∧
    exec (.getJobResult k) s = .next (s.says (s.errors 0x09 .uninit) 2) ∧
    exec (.getSeqResult k) s = .next (s.says (s.errors 0x0A .uninit) 2) ∧
    exec (.getHwunitStatus k) s = .next (s.says (s.errors 0x0C .uninit) 0) ∧
    exec .getStatus s = .next (s.says [] 0)) ∧
  (∀ (s : State) (a0 : Word), s.drvInit = true →
    exec (.init a0) s = .next (s.says (s.errors 0x01 .alreadyInitialized) 0))

/-- An id out of range (60_exceptions.md R395). -/
def Obligations.IdsOutOfRangeFail : Prop := ∀ (s : State) (k : BitVec 16) (a0 a1 a2 : Word) (m : Mode), s.drvInit = true →
  (s.cfg.numChannels ≤ k.toNat →
    exec (.writeIb k a0) s = .next (s.says (s.errors 0x03 .paramChannel) 1) ∧
    exec (.readIb k a0) s = .next (s.says (s.errors 0x04 .paramChannel) 1) ∧
    exec (.setupEb k a0 a1 a2) s = .next (s.says (s.errors 0x05 .paramChannel) 1)) ∧
  (s.cfg.numSeqs ≤ k.toNat →
    (s.params.level ≠ .asyncOnly → exec (.syncTransmit k) s = .next (s.says (s.errors 0x06 .paramSeq) 1)) ∧
    (s.params.level ≠ .syncOnly →
      exec (.asyncTransmit k) s = .next (s.says (s.errors 0x07 .paramSeq) 1) ∧
      exec (.cancel k) s = .next (s.says (s.errors 0x08 .paramSeq) 0)) ∧
    exec (.getSeqResult k) s = .next (s.says (s.errors 0x0A .paramSeq) 2)) ∧
  (s.cfg.numJobs ≤ k.toNat → exec (.getJobResult k) s = .next (s.says (s.errors 0x09 .paramJob) 2)) ∧
  (s.cfg.numUnits ≤ k.toNat →
    exec (.getHwunitStatus k) s = .next (s.says (s.errors 0x0C .paramUnit) 0) ∧
    (s.params.level ≠ .syncOnly → exec (.setHwunitAsyncMode k m) s = .next (s.says (s.errors 0x0E .paramUnit) 1)))

/-! ## Buffers and queries -/

/-- `ChannelActive` and what it refuses (40_lifecycle_buffers_queries.md R182). -/
def Obligations.ActiveChannelsAreRefused : Prop := ∀ (s : State) (k : BitVec 16) (a0 a1 a2 : Word),
  (s.channelActive k.toNat = true ↔ ∃ j, j < s.cfg.numJobs ∧ k.toNat ∈ (s.cfg.jobAt j).channels ∧
    ((s.jobAt j).owner ≠ none ∨ (s.jobAt j).result = .pending)) ∧
  (s.drvInit = true → k.toNat < s.cfg.numChannels → s.channelActive k.toNat = true →
    ((s.cfg.channelAt k.toNat).bufKind = .ib → exec (.writeIb k a0) s = .next (s.says [] 1)) ∧
    ((s.cfg.channelAt k.toNat).bufKind = .eb → 0 < a2.toNat → a2.toNat ≤ (s.cfg.channelAt k.toNat).maxLength →
      (a0 = 0 ∨ a0.toNat % bpf (s.widthOf k.toNat) = 0) → (a1 = 0 ∨ a1.toNat % bpf (s.widthOf k.toNat) = 0) →
      exec (.setupEb k a0 a1 a2) s = .next (s.says [] 1)))

/-- `WRITE_IB` on a channel in range that no job uses (40_lifecycle_buffers_queries.md R176): the buffer kind, the null source, the
alignment, the overlapping source, and the copy with its frame in memory. -/
def Obligations.WriteIbFillsTheBuffer : Prop := ∀ (s : State) (k : BitVec 16) (a0 : Word),
  s.drvInit = true → k.toNat < s.cfg.numChannels →
  ((s.cfg.channelAt k.toNat).bufKind = .eb → exec (.writeIb k a0) s = .next (s.says (s.errors 0x03 .paramChannel) 1)) ∧
  ((s.cfg.channelAt k.toNat).bufKind = .ib → s.channelActive k.toNat = false →
    (a0 = 0 → exec (.writeIb k a0) s =
      .next ({ s with chan := s.chan.set k.toNat { s.chanAt k.toNat with useDefault := true } }.says [] 0)) ∧
    (a0 ≠ 0 → a0.toNat % bpf (s.widthOf k.toNat) ≠ 0 →
      exec (.writeIb k a0) s = .next (s.says (s.errors 0x03 .paramPointer) 1)) ∧
    (a0 ≠ 0 → a0.toNat % bpf (s.widthOf k.toNat) = 0 →
      (a0.toNat < (s.cfg.channelAt k.toNat).ibTxAddr.toNat + s.bufBytes k.toNat →
        (s.cfg.channelAt k.toNat).ibTxAddr.toNat < a0.toNat + s.bufBytes k.toNat → 0 < s.bufBytes k.toNat →
        exec (.writeIb k a0) s = .refused .overlappingBuffers) ∧
      ((s.cfg.channelAt k.toNat).ibTxAddr.toNat + s.bufBytes k.toNat ≤ a0.toNat ∨
          a0.toNat + s.bufBytes k.toNat ≤ (s.cfg.channelAt k.toNat).ibTxAddr.toNat →
        s.memOk = true → a0.toNat + s.bufBytes k.toNat ≤ addressCount →
        (s.cfg.channelAt k.toNat).ibTxAddr.toNat + s.bufBytes k.toNat ≤ addressCount →
        ∃ m, exec (.writeIb k a0) s = .next
            ({ s with mem := m, chan := s.chan.set k.toNat { s.chanAt k.toNat with useDefault := false } }.says [] 0) ∧
          (∀ i, i < s.bufBytes k.toNat →
            readByte m ((s.cfg.channelAt k.toNat).ibTxAddr.toNat + i) = readByte s.mem (a0.toNat + i)) ∧
          (∀ x, x < (s.cfg.channelAt k.toNat).ibTxAddr.toNat ∨
              (s.cfg.channelAt k.toNat).ibTxAddr.toNat + s.bufBytes k.toNat ≤ x → readByte m x = readByte s.mem x))))

/-- `READ_IB` on a channel in range (40_lifecycle_buffers_queries.md R178): the buffer kind, the pointer, and the ascending copy, for
every place of the destination, with its frame in memory. -/
def Obligations.ReadIbCopiesOut : Prop := ∀ (s : State) (k : BitVec 16) (a0 : Word),
  s.drvInit = true → k.toNat < s.cfg.numChannels →
  ((s.cfg.channelAt k.toNat).bufKind = .eb → exec (.readIb k a0) s = .next (s.says (s.errors 0x04 .paramChannel) 1)) ∧
  ((s.cfg.channelAt k.toNat).bufKind = .ib →
    (a0 = 0 ∨ a0.toNat % bpf (s.widthOf k.toNat) ≠ 0 →
      exec (.readIb k a0) s = .next (s.says (s.errors 0x04 .paramPointer) 1)) ∧
    (a0 ≠ 0 → a0.toNat % bpf (s.widthOf k.toNat) = 0 → (s.cfg.channelAt k.toNat).ibRxAddr.toNat % bpf (s.widthOf k.toNat) = 0 →
      s.memOk = true → a0.toNat + s.bufBytes k.toNat ≤ addressCount →
      (s.cfg.channelAt k.toNat).ibRxAddr.toNat + s.bufBytes k.toNat ≤ addressCount →
      ∃ m, exec (.readIb k a0) s = .next ({ s with mem := m }.says [] 0) ∧
        (a0.toNat ≤ (s.cfg.channelAt k.toNat).ibRxAddr.toNat ∨
            (s.cfg.channelAt k.toNat).ibRxAddr.toNat + s.bufBytes k.toNat ≤ a0.toNat →
          ∀ i, i < s.bufBytes k.toNat →
            readByte m (a0.toNat + i) = readByte s.mem ((s.cfg.channelAt k.toNat).ibRxAddr.toNat + i)) ∧
        ((s.cfg.channelAt k.toNat).ibRxAddr.toNat ≤ a0.toNat → ∀ i, i < s.bufBytes k.toNat →
            readByte m (a0.toNat + i) = readByte m ((s.cfg.channelAt k.toNat).ibRxAddr.toNat + i)) ∧
        (∀ x, x < a0.toNat ∨ a0.toNat + s.bufBytes k.toNat ≤ x → readByte m x = readByte s.mem x)))

/-- A buffer command that would go past the 32-bit address space faults: the model's choice (log 9). -/
def Obligations.CopyPastMemoryFaults : Prop := ∀ (s : State) (k : BitVec 16) (a0 : Word),
  s.drvInit = true → k.toNat < s.cfg.numChannels → (s.cfg.channelAt k.toNat).bufKind = .ib → a0 ≠ 0 →
  a0.toNat % bpf (s.widthOf k.toNat) = 0 → 0 < s.bufBytes k.toNat → addressCount < a0.toNat + s.bufBytes k.toNat →
  exec (.readIb k a0) s = .fault .addressOutsideMemory ∧
  (s.channelActive k.toNat = false → (s.cfg.channelAt k.toNat).ibTxAddr.toNat + s.bufBytes k.toNat ≤ a0.toNat →
    exec (.writeIb k a0) s = .fault .addressOutsideMemory)

/-- `SETUP_EB` on a channel in range (40_lifecycle_buffers_queries.md R180), in the order of its checks. -/
def Obligations.SetupEbCases : Prop := ∀ (s : State) (k : BitVec 16) (a0 a1 a2 : Word),
  s.drvInit = true → k.toNat < s.cfg.numChannels →
  ((s.cfg.channelAt k.toNat).bufKind = .ib → exec (.setupEb k a0 a1 a2) s = .next (s.says (s.errors 0x05 .paramChannel) 1)) ∧
  ((s.cfg.channelAt k.toNat).bufKind = .eb →
    (a2 = 0 ∨ (s.cfg.channelAt k.toNat).maxLength < a2.toNat →
      exec (.setupEb k a0 a1 a2) s = .next (s.says (s.errors 0x05 .paramLength) 1)) ∧
    (a2 ≠ 0 → a2.toNat ≤ (s.cfg.channelAt k.toNat).maxLength →
      ((a0 ≠ 0 ∧ a0.toNat % bpf (s.widthOf k.toNat) ≠ 0) ∨ (a1 ≠ 0 ∧ a1.toNat % bpf (s.widthOf k.toNat) ≠ 0) →
        exec (.setupEb k a0 a1 a2) s = .next (s.says (s.errors 0x05 .paramPointer) 1)) ∧
      ((a0 = 0 ∨ a0.toNat % bpf (s.widthOf k.toNat) = 0) → (a1 = 0 ∨ a1.toNat % bpf (s.widthOf k.toNat) = 0) →
        (s.channelActive k.toNat = true → exec (.setupEb k a0 a1 a2) s = .next (s.says [] 1)) ∧
        (s.channelActive k.toNat = false → ∀ ch : ChanState,
          ch.txPtr = (if a0 = 0 then none else some a0) → ch.useDefault = decide (a0 = 0) →
          ch.rxPtr = (if a1 = 0 then none else some a1) → ch.discardRx = decide (a1 = 0) → ch.length = a2.toNat →
          exec (.setupEb k a0 a1 a2) s = .next ({ s with chan := s.chan.set k.toNat ch }.says [] 0)))))

/-- `GET_JOB_RESULT` and `GET_SEQ_RESULT` in every case (40_lifecycle_buffers_queries.md R184, R185): each answers and writes
nothing but its report and response. -/
def Obligations.ResultQueriesAnswer : Prop := ∀ (s : State) (k : BitVec 16),
  (s.drvInit = false →
    exec (.getJobResult k) s = .next (s.says (s.errors 0x09 .uninit) 2) ∧
    exec (.getSeqResult k) s = .next (s.says (s.errors 0x0A .uninit) 2)) ∧
  (s.drvInit = true →
    (s.cfg.numJobs ≤ k.toNat → exec (.getJobResult k) s = .next (s.says (s.errors 0x09 .paramJob) 2)) ∧
    (k.toNat < s.cfg.numJobs →
      exec (.getJobResult k) s = .next (s.says [] (match (s.jobAt k.toNat).result with
        | .ok => 0 | .pending => 1 | .failed => 2 | .queued => 3))) ∧
    (s.cfg.numSeqs ≤ k.toNat → exec (.getSeqResult k) s = .next (s.says (s.errors 0x0A .paramSeq) 2)) ∧
    (k.toNat < s.cfg.numSeqs →
      exec (.getSeqResult k) s = .next (s.says [] (match (s.seqAt k.toNat).result with
        | .ok => 0 | .pending => 1 | .failed => 2 | .cancelled => 3))))

/-- `GET_STATUS` and `GET_HWUNIT_STATUS` (40_lifecycle_buffers_queries.md R186 to R188): each value, and that nothing but the trace
changes. -/
def Obligations.StatusQueriesAnswer : Prop := ∀ (s : State) (k : BitVec 16),
  (s.drvInit = true → k.toNat < s.cfg.numUnits →
    (s.syncBusyMask.getLsbD k.toNat = true → exec (.getHwunitStatus k) s = .next (s.says [] 2)) ∧
    (s.syncBusyMask.getLsbD k.toNat = false →
      exec (.getHwunitStatus k) s = .next (s.says [] (match (s.unitAt k.toNat).status with
        | .uninit => 0 | .idle => 1 | .busy => 2)))) ∧
  (s.drvInit = false → exec .getStatus s = .next (s.says [] 0)) ∧
  (s.drvInit = true →
    ((s.syncBusyMask ≠ 0 ∨ ∃ u, u < s.cfg.numUnits ∧ (s.unitAt u).status = .busy) →
      exec .getStatus s = .next (s.says [] 2)) ∧
    (s.syncBusyMask = 0 → (∀ u, u < s.cfg.numUnits → (s.unitAt u).status ≠ .busy) →
      exec .getStatus s = .next (s.says [] 1)))

/-! ## Modes and polling -/

/-- `SET_ASYNC_MODE` (43_polling_and_mode.md R290): all asynchronous units or none. -/
def Obligations.SetAsyncModeAllOrNone : Prop := ∀ (s : State) (m : Mode),
  s.params.level ≠ .syncOnly → s.drvInit = true →
  ((∃ u, u < s.cfg.numUnits ∧ (s.cfg.unitAt u).isSync = false ∧ (s.unitAt u).status = .busy) →
    exec (.setAsyncMode m) s = .next (s.says [] 1)) ∧
  ((∀ u, u < s.cfg.numUnits → (s.cfg.unitAt u).isSync = false → (s.unitAt u).status ≠ .busy) →
    ∃ t, exec (.setAsyncMode m) s = .next t ∧ t = { s with dev := t.dev, trace := s.trace ++ [.rsp 0] } ∧
      t.dev.length = s.dev.length ∧
      (∀ u, u < s.cfg.numUnits → (s.cfg.unitAt u).isSync = false → u < s.dev.length →
        t.devAt u = { s.devAt u with asyncMode := m }) ∧
      (∀ u, (s.cfg.numUnits ≤ u ∨ (s.cfg.unitAt u).isSync = true) → t.devAt u = s.devAt u))

/-- `SET_HWUNIT_ASYNC_MODE` (43_polling_and_mode.md R291). -/
def Obligations.SetHwunitAsyncModeCases : Prop := ∀ (s : State) (k : BitVec 16) (m : Mode),
  s.params.level ≠ .syncOnly → s.drvInit = true →
  (s.cfg.numUnits ≤ k.toNat ∨ (s.cfg.unitAt k.toNat).isSync = true →
    exec (.setHwunitAsyncMode k m) s = .next (s.says (s.errors 0x0E .paramUnit) 1)) ∧
  (k.toNat < s.cfg.numUnits → (s.cfg.unitAt k.toNat).isSync = false →
    ((s.unitAt k.toNat).status = .busy → exec (.setHwunitAsyncMode k m) s = .next (s.says [] 1)) ∧
    ((s.unitAt k.toNat).status ≠ .busy → exec (.setHwunitAsyncMode k m) s =
      .next ({ s with dev := s.dev.set k.toNat { s.devAt k.toNat with asyncMode := m } }.says [] 0)))

/-- `MAIN_FUNCTION_HANDLING` (43_polling_and_mode.md R280, R282, R283): with no unit to poll it only responds; with one, it does what
that unit's `IrqPoll` does: on a FIFO unit it reads `STAT`, and if a flag is set dispatches, one frame each way on a master, or two
reads and no more while no answer has come in; a drain and a refill on a slave; on a DMA unit it reads the transmit flag, then the receive flag, and reloads what is done. -/
def Obligations.MainFunctionPolls : Prop :=
  (∀ s : State, s.undisturbed = true → s.params.level ≠ .syncOnly → s.drvInit = true → (∀ u, u < s.cfg.numUnits → ¬ s.toPoll u) →
    exec .mainFunctionHandling s = .next (s.says [] 0)) ∧
  (∀ (s : State) (u : Nat), s.undisturbed = true → s.pollsOnly u → (s.cfg.unitAt u).dmaUsed = false →
    (s.lpspiAt u).tdf = false → (s.lpspiAt u).rdf = false →
    exec .mainFunctionHandling s = .next (s.says [.regRead u (.stat false false (s.lpspiAt u).mbf)] 0)) ∧
  (∀ (s : State) (u : Nat), s.undisturbed = true → s.pollsOnly u → (s.cfg.unitAt u).dmaUsed = false → (s.cfg.unitAt u).slave = false →
    ((s.lpspiAt u).tdf = true ∨ (s.lpspiAt u).rdf = true) → (s.lpspiAt u).rxFifo = [] →
    ((s.devAt u).txDone = false ∨ (s.devAt u).rxDone = false) →
    exec .mainFunctionHandling s = .next (s.says
      [.regRead u (.stat (s.lpspiAt u).tdf (s.lpspiAt u).rdf (s.lpspiAt u).mbf), .regRead u (.fifostat (s.lpspiAt u).txCount 0)] 0)) ∧
  (∀ (s : State) (u j cr ct : Nat), s.undisturbed = true → s.tablesOk = true → s.memOk = true → s.pollsOnly u →
    (s.cfg.unitAt u).dmaUsed = false → ((s.lpspiAt u).tdf = true ∨ (s.lpspiAt u).rdf = true) →
    (∀ (v : Word) (rest : List Word), s.midChannel u j cr ct → (s.lpspiAt u).rxFifo = v :: rest →
      ∃ t w, exec .mainFunctionHandling s = .next t ∧
        s.movesOneFrame t u cr ct v w rest
          [.regRead u (.stat (s.lpspiAt u).tdf (s.lpspiAt u).rdf (s.lpspiAt u).mbf),
            .regRead u (.fifostat (s.lpspiAt u).txCount (s.lpspiAt u).rxCount), .regRead u (.rxdata v), .regWrite u (.txdata w),
            .rsp 0]) ∧
    (∀ m r : Nat, s.midSlave u j cr ct m r →
      ∃ t ws, exec .mainFunctionHandling s = .next t ∧
        s.movesSlaveFrames t u cr ct m r ws
          ([.regRead u (.stat (s.lpspiAt u).tdf (s.lpspiAt u).rdf (s.lpspiAt u).mbf),
            .regRead u (.fifostat (s.lpspiAt u).txCount (s.lpspiAt u).rxCount)] ++
            ((s.lpspiAt u).rxFifo.take m).map (fun v => .regRead u (.rxdata v)) ++
            (List.range r).map (fun i => .regWrite u (.txdata (ws i))) ++ [.rsp 0]))) ∧
  (∀ (s : State) (u j tx rx a b : Nat) (bt br : Bool), s.undisturbed = true → s.tablesOk = true → s.pollsOnly u →
    (s.cfg.unitAt u).dmaUsed = true → (s.devAt u).curJob = some j → tx = (s.cfg.unitAt u).dmaTxCh → rx = (s.cfg.unitAt u).dmaRxCh →
    bt = (s.dmaAt tx).done → br = (s.dmaAt rx).done → (s.devAt u).txDone = false → (s.devAt u).rxDone = false →
    a = (s.devAt u).remainingData → b = (s.devAt u).receivedData → (bt = true → 0 < a) → (br = true → 0 < b) →
    ∃ t, exec .mainFunctionHandling s = .next t ∧
      t = { s with
        dev := s.dev.set u { s.devAt u with
          remainingData := if bt = true then a - min a 511 else a
          sentFrames := if bt = true then (s.chanAt (s.chanOf j (s.devAt u).txChanIdx)).length - a else (s.devAt u).sentFrames
          receivedData := if br = true then b - min b 511 else b }
        dma := t.dma
        trace := s.trace ++ [.dmaPoll tx bt] ++
          (if bt = true then [.dmaAck tx, .dmaSetIter tx (min a 511), .dmaStart tx] else []) ++ [.dmaPoll rx br] ++
          (if br = true then [.dmaAck rx, .dmaSetIter rx (min b 511), .dmaStart rx] else []) ++ [.rsp 0] } ∧
      t.dmaAt tx = (if bt = true then { s.dmaAt tx with iterLeft := min a 511, active := true, done := false } else s.dmaAt tx) ∧
      t.dmaAt rx = (if br = true then { s.dmaAt rx with iterLeft := min b 511, active := true, done := false } else s.dmaAt rx) ∧
      ∀ ch, s.otherChannel u ch → t.dmaAt ch = s.dmaAt ch)

/-! ## Synchronous transmit -/

/-- The concurrency rejections (60_exceptions.md R401; the `PENDING` tests: 45_scheduler.md R331, 44_sync_transmit.md R303; a job named
twice: 45_scheduler.md R333): a report, `E_NOT_OK`, and nothing else. An `ASYNC_TRANSMIT` of a cancelled sequence that arrives at either
boundary between `CS7` of its job and its clean-up is rejected too, and `CANCELLED` stands (46_cancel.md R380, 45_scheduler.md R330; also when no job is
locked any more: log 44). -/
def Obligations.ConcurrencyRejections : Prop :=
  (∀ (s : State) (k : BitVec 16),
    s.undisturbed = true → s.tablesOk = true → s.drvInit = true → k.toNat < s.cfg.numSeqs →
    (s.params.level ≠ .syncOnly → s.seqIsSync k.toNat = false →
      ((lockJobs k.toNat s).1 = false ∨ (s.seqAt k.toNat).result = .pending ∨
        (∃ j ∈ (s.cfg.seqAt k.toNat).jobs, (s.jobAt j).owner ≠ none) ∨
        ¬ (s.cfg.seqAt k.toNat).jobs.Nodup) →
      exec (.asyncTransmit k) s = .next (s.says (s.errors 0x07 .seqPending) 1)) ∧
    (s.params.level ≠ .asyncOnly → s.seqIsSync k.toNat = true →
      ((s.seqAt k.toNat).result = .pending ∨ s.syncBusyMask &&& s.usedUnits k.toNat ≠ 0) →
      exec (.syncTransmit k) s = .next (s.says (s.errors 0x06 .seqInProcess) 1))) ∧
  (∀ (n w : Nat) (ctx : Ctx) (s : State) (k : BitVec 16) (j u r : Nat),
    s.inputs = [{ wait := some (w + 1), what := .port (encode (.asyncTransmit k)) }] → w < 2 → 0 < n →
    s.params.hostPreemption = true → ctx.handler = false → s.params.level ≠ .syncOnly → s.tablesOk = true → s.drvInit = true →
    k.toNat < s.cfg.numSeqs → s.seqIsSync k.toNat = false → j < s.cfg.numJobs → u = s.unitOf j →
    (s.jobAt j).owner = some k.toNat → (s.seqAt k.toNat).result = .cancelled → (s.seqAt k.toNat).remainingJobs = r + 1 →
    (s.unitAt u).maxPrio < 0 →
    ∃ t, jobTransferFinished (deliver n) ctx j s = .ok t ∧
      t = { s with
        inputs := [], job := t.job
        seq := s.seq.set k.toNat { s.seqAt k.toNat with remainingJobs := r }
        unit := s.unit.set u { s.unitAt u with status := .idle }
        trace := s.trace ++
          (if w = 0 then s.errors 0x07 .seqPending ++ [.rsp 1] ++ notice (s.cfg.jobAt j).endNotif .jobEnd j
            else notice (s.cfg.jobAt j).endNotif .jobEnd j ++ s.errors 0x07 .seqPending ++ [.rsp 1]) ++
          notice (s.params.cancelFiresSeqEnd && (s.cfg.seqAt k.toNat).endNotif) .seqEnd k.toNat } ∧
      t.jobAt j = { s.jobAt j with result := .ok, owner := none } ∧
      (∀ i, i ≠ j → t.jobAt i =
        (if i ∈ (s.cfg.seqAt k.toNat).jobs ∧ (s.jobAt i).owner = some k.toNat then { s.jobAt i with owner := none } else s.jobAt i)))

/-- A synchronous transmit whose jobs are ready always ends, within the counter's budget (44_sync_transmit.md R303, R307, R309): it
releases exactly what it claimed (R312), writes the results (R305), reports the time-out to the one sink that takes it (60_exceptions.md
R405), and leaves everything else alone: the units' queues (R315), the channels, the owners, other units, and every byte outside the
receive buffers. -/
def Obligations.SyncTransmitAlwaysEnds : Prop := ∀ (s : State) (k : BitVec 16),
  s.undisturbed = true → s.tablesOk = true → s.params.level ≠ .asyncOnly → s.drvInit = true →
  k.toNat < s.cfg.numSeqs → s.seqIsSync k.toNat = true → (s.seqAt k.toNat).result ≠ .pending →
  s.syncBusyMask &&& s.usedUnits k.toNat = 0 → (∀ j ∈ (s.cfg.seqAt k.toNat).jobs, s.jobReady j = true) →
  ∃ (t : State) (failed : Bool) (es : List Entry), exec (.syncTransmit k) s = .next t ∧
    t = { s with
      seq := s.seq.set k.toNat { s.seqAt k.toNat with result := if failed = true then .failed else .ok }
      job := t.job, dev := t.dev, lpspi := t.lpspi, mem := t.mem, freeCount := t.freeCount
      trace := s.trace ++ es ++ [.rsp (if failed = true then 1 else 0)] } ∧
    (.demTimeout ∈ es ↔ failed = true ∧ s.params.demConfigured = true) ∧ (∀ op e, .err op e ∉ es) ∧
    (failed = false → ∀ j ∈ (s.cfg.seqAt k.toNat).jobs, (t.jobAt j).result = .ok) ∧
    (failed = true → ∃ j ∈ (s.cfg.seqAt k.toNat).jobs, (t.jobAt j).result = .failed) ∧
    (∀ j, (t.jobAt j).owner = (s.jobAt j).owner ∧ (t.jobAt j).next = (s.jobAt j).next) ∧
    (∀ j, j ∉ (s.cfg.seqAt k.toNat).jobs → t.jobAt j = s.jobAt j) ∧
    (∀ u, (∀ j ∈ (s.cfg.seqAt k.toNat).jobs, s.unitOf j ≠ u) → t.devAt u = s.devAt u ∧ t.lpspiAt u = s.lpspiAt u) ∧
    (∀ x, (∀ j ∈ (s.cfg.seqAt k.toNat).jobs, ∀ c ∈ (s.cfg.jobAt j).channels, ∀ a ∈ s.rxSpan c,
      x < a.start ∨ a.start + a.bytes ≤ x) → readByte t.mem x = readByte s.mem x)

/-- A synchronous transmit of one job with one channel, with room for all its frames and the answers waiting
(44_sync_transmit.md R305, R306, R308): the register writes in order, the received frames in memory, `E_OK`, and the unit's
peripheral and `Dev` record afterwards. -/
def Obligations.SyncTransmitSucceeds : Prop := ∀ (s : State) (k : BitVec 16) (u j c : Nat) (vs : Nat → Word) (ws : List RegWrite),
  s.undisturbed = true → s.tablesOk = true → s.memOk = true → s.params.level ≠ .asyncOnly → s.drvInit = true →
  k.toNat < s.cfg.numSeqs → s.seqIsSync k.toNat = true → (s.seqAt k.toNat).result ≠ .pending →
  s.syncBusyMask &&& s.usedUnits k.toNat = 0 → (s.cfg.seqAt k.toNat).jobs = [j] → (s.cfg.jobAt j).channels = [c] →
  u = s.unitOf j → s.jobReady j = true → (s.chanAt c).length ≤ (s.lpspiAt u).rxFifo.length →
  (s.lpspiAt u).txCount + (s.chanAt c).length ≤ s.params.fifoSize →
  (s.chanAt c).length ≤ s.params.timeoutCounter.toNat →
  (∀ i, i < (s.chanAt c).length → txFrameValue s c (s.widthOf c) i = .ok (vs i)) →
  ws = [.clkcfg (s.cfg.jobAt j).dev.clockTiming, .fifoctrl (s.cfg.channelAt c).wmTx (s.cfg.channelAt c).wmRx,
      .txcmd (chanCmd s.cfg j c (s.cfg.jobAt j).dev.contCS)] ++
    (List.range (s.chanAt c).length).map (fun i => .txdata (vs i)) ++
    (if (s.cfg.jobAt j).dev.contCS = true then [.txcmd (chanCmd s.cfg j c false)] else []) →
  ∃ (t : State) (es : List Entry), exec (.syncTransmit k) s = .next t ∧
    t = { s with
      seq := s.seq.set k.toNat { s.seqAt k.toNat with result := .ok }
      job := s.job.set j { s.jobAt j with result := .ok }
      dev := s.dev.set u { s.devAt u with
        cmdWord := chanCmd s.cfg j c false, curJob := none, txChanIdx := 0, rxChanIdx := 0, txRemaining := 0, rxRemaining := 0
        sentFrames := (s.chanAt c).length, txDone := true, rxDone := true, contCSActive := false }
      lpspi := s.lpspi.set u { (s.lpspiAt u).writes s.params.fifoSize s.freeCount ws with
        rxFifo := (s.lpspiAt u).rxFifo.drop (s.chanAt c).length }
      mem := t.mem, trace := s.trace ++ es ++ [.rsp 0] } ∧
    regWritesOf es = ws.map (fun w => (u, w)) ∧
    (∀ i p, i < (s.chanAt c).length → (s.chanAt c).discardRx = false → (s.chanAt c).rxPtr = some p →
      memRead t.mem (frameAddr p (s.widthOf c) i) (bpf (s.widthOf c)) =
        ((s.lpspiAt u).rxFifo.getD i 0).toNat % 2 ^ (s.widthOf c).bits) ∧
    (∀ x, (∀ a ∈ s.rxSpan c, x < a.start ∨ a.start + a.bytes ≤ x) → readByte t.mem x = readByte s.mem x)

/-- Fast-path equivalence (44_sync_transmit.md R311): whichever path `SYNC_TRANSMIT` selects, the answer is the general path's, state,
trace and counter, for every behaviour `b` of the surroundings that leaves the configuration and the unit's `Dev` alone, and for what
comes between two segments when no procedure waits: moves of other hardware and of the host. -/
def Obligations.FastPathEqualsGeneralPath : Prop := ∀ (ctx : Ctx) (q timeout : Nat) (s : State),
  s.tablesOk = true → s.drvInit = true → q < s.cfg.numSeqs →
  (∀ b : Boundary,
    (∀ ctx' x y, b ctx' x = .ok y → y.cfg = x.cfg ∧ y.dev.length = x.dev.length ∧
      y.devAt (s.unitOf (tget (s.cfg.seqAt q).jobs 0)) = x.devAt (s.unitOf (tget (s.cfg.seqAt q).jobs 0))) →
    syncTransfer b ctx q timeout s = syncSeqGeneral b ctx q timeout s) ∧
  (∀ n : Nat, s.noProcedureWaits = true →
    syncTransfer (deliver n) ctx q timeout s = syncSeqGeneral (deliver n) ctx q timeout s)

/-- A time-out (44_sync_transmit.md R306, R309) makes no register access (what it leaves in the unit's FIFOs, shifter and on its chip select is
open: 93_implementation_defined.md U8, log 30), and the later jobs of the sequence are marked failed with
only their end notifications (R305, 60_exceptions.md R406). -/
def Obligations.TimedOutSequenceIsPoisoned : Prop :=
  (∀ (b : Boundary) (ctx : Ctx) (u c : Nat) (w : Width) (last : Bool) (s s' : State), syncLeft u s = true → b ctx s = .ok s' →
    ∃ t, syncPasses b ctx u c w last 0 s = .ok (none, t) ∧
      t = { s' with
        dev := s'.dev.set u { s'.devAt u with curJob := none, contCSActive := false }
        lpspi := s'.lpspi.set u (t.lpspiAt u), freeCount := s'.freeCount + 1 } ∧
      (u < s'.lpspi.length → t.lpspiAt u =
        { s'.lpspiAt u with
          txFifo := (t.lpspiAt u).txFifo, rxFifo := (t.lpspiAt u).rxFifo, shifting := (t.lpspiAt u).shifting
          csHeld := (t.lpspiAt u).csHeld, shiftCmd := (t.lpspiAt u).shiftCmd })) ∧
  (∀ (n : Nat) (ctx : Ctx) (jobs : List Nat) (s : State), s.undisturbed = true →
    ∃ t, syncJobs (deliver n) ctx jobs none s = .ok (none, t) ∧
      t = { s with
        job := t.job
        trace := s.trace ++ jobs.flatMap fun j => notice (s.cfg.jobAt j).endNotif .jobEnd j } ∧
      (∀ j ∈ jobs, j < s.job.length → t.jobAt j = { s.jobAt j with result := .failed }) ∧
      (∀ j, j ∉ jobs → t.jobAt j = s.jobAt j))

/-- Chip-select continuity of a synchronous job that is not timed out (44_sync_transmit.md R308, 41_engine_fifo.md R227, R228): with
continuous CS, `CONT` is set before the first frame, cleared after the last, and never in between; without, it is never set. -/
def Obligations.SyncChipSelectContinuity : Prop := ∀ (n : Nat) (ctx : Ctx) (j timeout left : Nat) (s t : State),
  s.undisturbed = true → s.tablesOk = true → s.drvInit = true → j < s.cfg.numJobs →
  syncJobTransfer (deliver n) ctx j timeout s = .ok (some left, t) →
  ∃ es, t.trace = s.trace ++ es ∧
    ((s.cfg.jobAt j).dev.contCS = true →
      ∃ mid, wireWrites es = some true :: mid ++ [some false] ∧ some false ∉ mid ∧ none ∈ mid) ∧
    ((s.cfg.jobAt j).dev.contCS = false → some true ∉ wireWrites es)

/-! ## Asynchronous transmit and the scheduler -/

/-- `LockJobs` locks every job of the sequence or none (45_scheduler.md R331, R333, R334). -/
def Obligations.LockJobsAllOrNothing : Prop := ∀ (s : State) (q : Nat),
  ((lockJobs q s).1 = false → (lockJobs q s).2 = s) ∧
  ((lockJobs q s).1 = true →
    (s.seqAt q).result ≠ .pending ∧ (lockJobs q s).2 = { s with job := (lockJobs q s).2.job } ∧
    (∀ j ∈ (s.cfg.seqAt q).jobs, j < s.job.length →
      (s.jobAt j).owner = none ∧ (lockJobs q s).2.jobAt j = { s.jobAt j with owner := some q }) ∧
    (∀ j, j ∉ (s.cfg.seqAt q).jobs → (lockJobs q s).2.jobAt j = s.jobAt j))

/-- `ASYNC_TRANSMIT` with the first job's unit idle (45_scheduler.md R330, R340; 41_engine_fifo.md R211): the sequence is accepted, its
jobs are locked and queued, the first one is in flight; buffer memory, every other unit and every DMA channel of another unit are as
before. -/
def Obligations.AsyncTransmitStartsTheFirstJob : Prop := ∀ (s : State) (k : BitVec 16) (j : Nat) (rest : List Nat),
  s.undisturbed = true → s.tablesOk = true → s.params.level ≠ .syncOnly → s.drvInit = true →
  k.toNat < s.cfg.numSeqs → s.seqIsSync k.toNat = false → (s.seqAt k.toNat).result ≠ .pending →
  (s.cfg.seqAt k.toNat).jobs = j :: rest → (j :: rest).Nodup → (∀ i ∈ j :: rest, (s.jobAt i).owner = none) →
  (s.unitAt (s.unitOf j)).status = .idle → s.jobReady j = true →
  ∃ (t : State) (es : List Entry), exec (.asyncTransmit k) s = .next t ∧
    t = { s with
      seq := s.seq.set k.toNat { result := .pending, remainingJobs := rest.length + 1, cursor := 0 }
      unit := s.unit.set (s.unitOf j) { s.unitAt (s.unitOf j) with status := .busy }
      job := t.job, dev := t.dev, dma := t.dma, lpspi := t.lpspi, freeCount := t.freeCount
      trace := s.trace ++ notice (s.cfg.jobAt j).startNotif .jobStart j ++
        [.regWrite (s.unitOf j) (.clkcfg (s.cfg.jobAt j).dev.clockTiming)] ++ es ++ [.rsp 0] } ∧
    t.jobAt j = { s.jobAt j with result := .pending, owner := some k.toNat } ∧
    (∀ i ∈ rest, t.jobAt i = { s.jobAt i with result := .queued, owner := some k.toNat }) ∧
    (∀ i, i ∉ j :: rest → t.jobAt i = s.jobAt i) ∧
    (t.devAt (s.unitOf j)).curJob = some j ∧
    (∀ u, u ≠ s.unitOf j → t.devAt u = s.devAt u ∧ t.lpspiAt u = s.lpspiAt u) ∧
    (∀ ch, ((s.cfg.unitAt (s.unitOf j)).dmaUsed = false ∨ s.otherChannel (s.unitOf j) ch) → t.dmaAt ch = s.dmaAt ch)

/-- `ASYNC_TRANSMIT` with the first job's unit busy (45_scheduler.md R330, R340): the first job is appended at the tail of its
level's list and nothing is started. -/
def Obligations.AsyncTransmitQueuesOnABusyUnit : Prop := ∀ (s : State) (k : BitVec 16) (j : Nat) (rest : List Nat),
  s.undisturbed = true → s.tablesOk = true → s.params.level ≠ .syncOnly → s.drvInit = true →
  k.toNat < s.cfg.numSeqs → s.seqIsSync k.toNat = false → (s.seqAt k.toNat).result ≠ .pending →
  (s.cfg.seqAt k.toNat).jobs = j :: rest → (j :: rest).Nodup → (∀ i ∈ j :: rest, (s.jobAt i).owner = none) →
  (s.unitAt (s.unitOf j)).status = .busy →
  (∀ i, (s.unitAt (s.unitOf j)).tailAt (s.cfg.jobAt j).priority = some i → i ∉ j :: rest ∧ i < s.job.length) →
  ∃ t : State, exec (.asyncTransmit k) s = .next t ∧
    t = { s with
      seq := s.seq.set k.toNat { result := .pending, remainingJobs := rest.length + 1, cursor := 0 }
      unit := s.unit.set (s.unitOf j) { s.unitAt (s.unitOf j) with
        head := (if (s.unitAt (s.unitOf j)).tailAt (s.cfg.jobAt j).priority = none then
            (s.unitAt (s.unitOf j)).head.set (s.cfg.jobAt j).priority (some j)
          else (s.unitAt (s.unitOf j)).head)
        tail := (s.unitAt (s.unitOf j)).tail.set (s.cfg.jobAt j).priority (some j)
        maxPrio := max (s.unitAt (s.unitOf j)).maxPrio ((s.cfg.jobAt j).priority : Int) }
      job := t.job, trace := s.trace ++ [.rsp 0] } ∧
    t.jobAt j = { result := .queued, owner := some k.toNat, next := none } ∧
    (∀ i ∈ rest, t.jobAt i = { s.jobAt i with result := .queued, owner := some k.toNat }) ∧
    (∀ i, (s.unitAt (s.unitOf j)).tailAt (s.cfg.jobAt j).priority = some i → t.jobAt i = { s.jobAt i with next := some j }) ∧
    (∀ i, i ∉ j :: rest → (s.unitAt (s.unitOf j)).tailAt (s.cfg.jobAt j).priority ≠ some i → t.jobAt i = s.jobAt i)

/-- The start of a job on a FIFO unit (41_engine_fifo.md R211, R213, R214, R216 to R218): one frame of the first channel is primed on a
master, as many as it has and as fit on a slave. Every register write and the interrupt enable, in order, the peripheral and the `Dev`
record: when the first channel has more frames; when they were all of a one-channel job; when the next channel follows (R224). -/
def Obligations.FifoJobStart : Prop :=
  ∀ (s : State) (u j c n : Nat) (cont : Bool) (vs : Nat → Word) (ws : List RegWrite),
  s.undisturbed = true → s.tablesOk = true → s.drvInit = true → j < s.cfg.numJobs → u = s.unitOf j →
  (s.cfg.unitAt u).dmaUsed = false → s.jobReady j = true → c = s.chanOf j 0 → cont = (s.cfg.jobAt j).dev.contCS →
  n = (if (s.cfg.unitAt u).slave = true then min (s.chanAt c).length s.params.fifoSize else 1) →
  (s.lpspiAt u).txCount + n ≤ s.params.fifoSize → (∀ i, i < n → txFrameValue s c (s.widthOf c) i = .ok (vs i)) →
  ws = [.clkcfg (s.cfg.jobAt j).dev.clockTiming, .fifoctrl (s.cfg.channelAt c).wmTx (s.cfg.channelAt c).wmRx,
      .txcmd (chanCmd s.cfg j c cont)] ++ (List.range n).map (fun i => .txdata (vs i)) →
  ∃ (t : State) (d : Dev) (after : List RegWrite), jobStart j s = .ok t ∧
    t = { s with
      dev := s.dev.set u { d with
        irqEnabled := (s.devAt u).irqEnabled || decide ((s.devAt u).asyncMode = .interrupt) }
      lpspi := s.lpspi.set u ((s.lpspiAt u).writes s.params.fifoSize s.freeCount (ws ++ after))
      trace := s.trace ++ notice (s.cfg.jobAt j).startNotif .jobStart j ++ (ws ++ after).map (.regWrite u) ++
        (if (s.devAt u).asyncMode = .interrupt then [.irqEnable u true] else []) } ∧
    (n < (s.chanAt c).length → after = [] ∧
      d = { s.devAt u with
        curJob := some j, txChanIdx := 0, rxChanIdx := 0, txDone := false, rxDone := false
        txRemaining := (s.chanAt c).length - n, rxRemaining := (s.chanAt c).length, sentFrames := n
        cmdWord := chanCmd s.cfg j c cont, contCSActive := cont }) ∧
    (n = (s.chanAt c).length → s.numChannelsOf j = 1 →
      after = (if cont = true then [.txcmd (chanCmd s.cfg j c false)] else []) ∧
      d = { s.devAt u with
        curJob := some j, txChanIdx := 0, rxChanIdx := 0, txDone := true, rxDone := false
        txRemaining := 0, rxRemaining := (s.chanAt c).length, sentFrames := n
        cmdWord := chanCmd s.cfg j c false, contCSActive := false }) ∧
    (∀ c', n = (s.chanAt c).length → 1 < s.numChannelsOf j → c' = s.chanOf j 1 →
      after = (if chanCmd s.cfg j c' cont = chanCmd s.cfg j c cont then [] else [.txcmd (chanCmd s.cfg j c' cont)]) ∧
      d = { s.devAt u with
        curJob := some j, txChanIdx := 1, rxChanIdx := 0, txDone := false, rxDone := false
        txRemaining := (s.chanAt c').length, rxRemaining := (s.chanAt c).length, sentFrames := 0
        cmdWord := chanCmd s.cfg j c' cont, contCSActive := cont })

/-- The end of a channel on the FIFO path (41_engine_fifo.md R224, R225, R226): the last frame of the job's last channel is followed by
the chip-select clear and ends its side; the last frame of another channel by the next channel's command word, where it differs from
the one in force, and counters. -/
def Obligations.FifoChannelBoundaries : Prop := ∀ (s : State) (u j : Nat),
  s.undisturbed = true → s.tablesOk = true → s.drvInit = true → j < s.cfg.numJobs → u = s.unitOf j →
  (s.devAt u).curJob = some j →
  (∀ (c : Nat) (v : Word), c = s.chanOf j (s.devAt u).txChanIdx → (s.devAt u).txRemaining = 1 → (s.devAt u).sentFrames < 65535 →
    (s.lpspiAt u).txCount < s.params.fifoSize → txFrameValue s c (s.widthOf c) (s.txIndex u c) = .ok v →
    (∀ ws, (s.devAt u).txChanIdx + 1 = s.numChannelsOf j →
      ws = RegWrite.txdata v :: (if (s.devAt u).contCSActive = true then [.txcmd { (s.devAt u).cmdWord with cont := false }] else []) →
      txWriteFrame u s = .ok { s with
        dev := s.dev.set u { s.devAt u with
          txRemaining := 0, sentFrames := (s.devAt u).sentFrames + 1, txDone := true, contCSActive := false
          cmdWord := if (s.devAt u).contCSActive = true then { (s.devAt u).cmdWord with cont := false } else (s.devAt u).cmdWord }
        lpspi := s.lpspi.set u ((s.lpspiAt u).writes s.params.fifoSize s.freeCount ws)
        trace := s.trace ++ ws.map (.regWrite u) }) ∧
    (∀ (ws : List RegWrite) (c' : Nat) (cmd : CmdWord), (s.devAt u).txChanIdx + 1 < s.numChannelsOf j →
      c' = s.chanOf j ((s.devAt u).txChanIdx + 1) → 0 < (s.chanAt c').length →
      cmd = chanCmd s.cfg j c' (s.devAt u).contCSActive →
      ws = RegWrite.txdata v :: (if cmd = (s.devAt u).cmdWord then [] else [.txcmd cmd]) →
      txWriteFrame u s = .ok { s with
        dev := s.dev.set u { s.devAt u with
          txChanIdx := (s.devAt u).txChanIdx + 1, txRemaining := (s.chanAt c').length, sentFrames := 0, cmdWord := cmd }
        lpspi := s.lpspi.set u ((s.lpspiAt u).writes s.params.fifoSize s.freeCount ws)
        trace := s.trace ++ ws.map (.regWrite u) })) ∧
  (∀ (c : Nat) (v : Word) (rest : List Word), c = s.chanOf j (s.devAt u).rxChanIdx → (s.devAt u).rxRemaining = 1 →
    s.chanReady c = true → s.memOk = true → (s.lpspiAt u).rxFifo = v :: rest →
    ((s.devAt u).rxChanIdx + 1 = s.numChannelsOf j →
      ∃ t, rxReadFrame u s = .ok t ∧ s.storesFrame t.mem c (s.rxIndex u c) v ∧
        t = { s with
          mem := t.mem
          dev := s.dev.set u { s.devAt u with rxRemaining := 0, rxDone := true }
          lpspi := s.lpspi.set u { s.lpspiAt u with rxFifo := rest }
          trace := s.trace ++ [.regRead u (.rxdata v)] }) ∧
    (∀ c', (s.devAt u).rxChanIdx + 1 < s.numChannelsOf j → c' = s.chanOf j ((s.devAt u).rxChanIdx + 1) →
      0 < (s.chanAt c').length →
      ∃ t, rxReadFrame u s = .ok t ∧ s.storesFrame t.mem c (s.rxIndex u c) v ∧
        t = { s with
          mem := t.mem
          dev := s.dev.set u { s.devAt u with rxChanIdx := (s.devAt u).rxChanIdx + 1, rxRemaining := (s.chanAt c').length }
          lpspi := s.lpspi.set u { s.lpspiAt u with rxFifo := rest }
          trace := s.trace ++ [.regRead u (.rxdata v)] }))

/-- The start of a job on a DMA unit (42_engine_dma.md R252, R254, R256): the receiver first, then the watermarks and the command word,
the transmitter last; the descriptors, both channels, the peripheral and the `Dev` record; every other DMA channel is as before. -/
def Obligations.DmaJobStart : Prop :=
  ∀ (s : State) (u j c sinc dinc : Nat) (src dst : DmaEnd) (ws : List RegWrite) (tt tr : Tcd),
  s.undisturbed = true → s.tablesOk = true → s.drvInit = true → j < s.cfg.numJobs → u = s.unitOf j →
  (s.cfg.unitAt u).dmaUsed = true → c = s.chanOf j 0 → 0 < (s.chanAt c).length → s.buffersOverlap j = false →
  s.sendsFrom c src sinc → s.keepsAt c dst dinc →
  ws = [.fifoctrl (s.cfg.channelAt c).wmTx (s.cfg.channelAt c).wmRx, .txcmd (chanCmd s.cfg j c (s.cfg.jobAt j).dev.contCS)] →
  tt = { src := src, dst := .txData u, size := bpf (s.widthOf c), iter := min (s.chanAt c).length 511, srcInc := sinc, dstInc := 0 } →
  tr = { src := .rxData u, dst := dst, size := bpf (s.widthOf c), iter := min (s.chanAt c).length 511, srcInc := 0, dstInc := dinc } →
  ∃ t, jobStart j s = .ok t ∧
    t = { s with
      dev := s.dev.set u { s.devAt u with
        curJob := some j, txChanIdx := 0, rxChanIdx := 0, txDone := false, rxDone := false
        remainingData := (s.chanAt c).length - min (s.chanAt c).length 511
        receivedData := (s.chanAt c).length - min (s.chanAt c).length 511, sentFrames := 0
        cmdWord := chanCmd s.cfg j c (s.cfg.jobAt j).dev.contCS, contCSActive := (s.cfg.jobAt j).dev.contCS }
      lpspi := s.lpspi.set u ((s.lpspiAt u).writes s.params.fifoSize s.freeCount
        (.clkcfg (s.cfg.jobAt j).dev.clockTiming :: ws))
      dma := t.dma
      trace := s.trace ++ notice (s.cfg.jobAt j).startNotif .jobStart j ++
        [.regWrite u (.clkcfg (s.cfg.jobAt j).dev.clockTiming), .dmaCfg (s.cfg.unitAt u).dmaRxCh tr,
          .dmaStart (s.cfg.unitAt u).dmaRxCh] ++ ws.map (.regWrite u) ++
        [.dmaCfg (s.cfg.unitAt u).dmaTxCh tt, .dmaStart (s.cfg.unitAt u).dmaTxCh] } ∧
    t.dmaAt (s.cfg.unitAt u).dmaTxCh = .armed tt ∧ t.dmaAt (s.cfg.unitAt u).dmaRxCh = .armed tr ∧
    ∀ ch, s.otherChannel u ch → t.dmaAt ch = s.dmaAt ch

/-- What a transmit command does with a job that cannot be transferred (41_engine_fifo.md R212, 93_implementation_defined.md U11): the
run is refused at the job's start. -/
def Obligations.UntransferableJobsAreRefused : Prop := ∀ (s : State) (k : BitVec 16) (j : Nat) (rest : List Nat),
  s.undisturbed = true → s.tablesOk = true → s.drvInit = true → k.toNat < s.cfg.numSeqs →
  (s.seqAt k.toNat).result ≠ .pending → (s.cfg.seqAt k.toNat).jobs = j :: rest →
  (s.params.level ≠ .syncOnly → s.seqIsSync k.toNat = false → (j :: rest).Nodup → (∀ i ∈ j :: rest, (s.jobAt i).owner = none) →
    (s.unitAt (s.unitOf j)).status = .idle →
    (s.buffersOverlap j = true → exec (.asyncTransmit k) s = .refused .overlappingBuffers) ∧
    (s.buffersOverlap j = false → (s.chanAt (s.chanOf j 0)).length = 0 →
      exec (.asyncTransmit k) s = .refused .zeroLengthChannel)) ∧
  (s.params.level ≠ .asyncOnly → s.seqIsSync k.toNat = true → s.syncBusyMask &&& s.usedUnits k.toNat = 0 →
    (s.buffersOverlap j = true → exec (.syncTransmit k) s = .refused .overlappingBuffers) ∧
    (s.buffersOverlap j = false → (s.chanAt (s.chanOf j 0)).length = 0 →
      exec (.syncTransmit k) s = .refused .zeroLengthChannel))

/-- Priority ordering (45_scheduler.md R350): jobs queued at priorities 3, 1, 3, 2 come out 3, 3, 2, 1, first in first out within a level,
on a unit that is busy at the first and on one that is idle at the first. -/
def Obligations.PriorityOrder : Prop := ∀ (s : State) (u a b c d : Nat),
  [a, b, c, d].Nodup → (∀ j ∈ [a, b, c, d], j < s.job.length ∧ s.unitOf j = u) → u < s.unit.length →
  (s.cfg.jobAt a).priority = 3 → (s.cfg.jobAt b).priority = 1 → (s.cfg.jobAt c).priority = 3 → (s.cfg.jobAt d).priority = 2 →
  (s.unitAt u).head = [none, none, none, none] → (s.unitAt u).tail = [none, none, none, none] → (s.unitAt u).maxPrio = -1 →
  ((s.unitAt u).status = .busy →
    ∃ s1 s2 s3 s4 s5,
      popNext u (claimOrEnqueue d (claimOrEnqueue c (claimOrEnqueue b (claimOrEnqueue a s).2).2).2).2 = .ok (some a, s1) ∧
      popNext u s1 = .ok (some c, s2) ∧ popNext u s2 = .ok (some d, s3) ∧ popNext u s3 = .ok (some b, s4) ∧
      popNext u s4 = .ok (none, s5) ∧ (s5.unitAt u).status = .idle) ∧
  ((s.unitAt u).status = .idle →
    (claimOrEnqueue a s).1 = true ∧ ((claimOrEnqueue a s).2.jobAt a).result = .pending ∧
    ∃ s1 s2 s3 s4,
      popNext u (claimOrEnqueue d (claimOrEnqueue c (claimOrEnqueue b (claimOrEnqueue a s).2).2).2).2 = .ok (some c, s1) ∧
      popNext u s1 = .ok (some d, s2) ∧ popNext u s2 = .ok (some b, s3) ∧
      popNext u s3 = .ok (none, s4) ∧ (s4.unitAt u).status = .idle)

/-- `ScheduleNextJob`'s segment `CS4` (45_scheduler.md R342) on a queue in order: the unit becomes idle when all lists are empty, else
the head of the highest non-empty list is taken, the queue stays in order, and only a list that became empty loses its tail. -/
def Obligations.PopTakesTheHighestLevel : Prop := ∀ (s : State) (u : Nat),
  u < s.unit.length → (s.unitAt u).ok = true →
  ((∀ p, p < 4 → (s.unitAt u).headAt p = none) →
    popNext u s = .ok (none, { s with unit := s.unit.set u { s.unitAt u with status := .idle } })) ∧
  (∀ p j, p < 4 → (s.unitAt u).headAt p = some j → (∀ p', p < p' → p' < 4 → (s.unitAt u).headAt p' = none) →
    ∃ t, popNext u s = .ok (some j, t) ∧ t = { s with unit := t.unit, job := t.job } ∧
      (t.unitAt u).ok = true ∧ (t.unitAt u).status = (s.unitAt u).status ∧
      (t.unitAt u).headAt p = (s.jobAt j).next ∧
      (t.unitAt u).tailAt p = (if (s.jobAt j).next = none then none else (s.unitAt u).tailAt p) ∧
      (∀ p', p' ≠ p → (t.unitAt u).headAt p' = (s.unitAt u).headAt p' ∧ (t.unitAt u).tailAt p' = (s.unitAt u).tailAt p') ∧
      (j < s.job.length → t.jobAt j = { s.jobAt j with result := .pending, next := none }) ∧
      (∀ i, i ≠ j → t.jobAt i = s.jobAt i) ∧ (∀ u', u' ≠ u → t.unitAt u' = s.unitAt u'))

/-- A job that is not its sequence's last one finishes (45_scheduler.md R345), and the sequence goes on with its next job (R346): on
the same unit a non-interruptible one at once, with no queue touched; an interruptible one through the unit's queue, which is as
before when nothing else waited; on another unit it claims that unit or waits there, and its old unit is handed on. -/
def Obligations.SequenceGoesOn : Prop :=
  (∀ (n : Nat) (ctx : Ctx) (s : State) (j q r : Nat),
    s.undisturbed = true → (s.jobAt j).owner = some q → (s.seqAt q).result ≠ .cancelled →
    (s.seqAt q).remainingJobs = r + 1 → r ≠ 0 → (s.seqAt q).cursor < 65535 →
    jobTransferFinished (deliver n) ctx j s = startOrScheduleNext (deliver n) ctx q (s.unitOf j)
      { s with
        job := s.job.set j { s.jobAt j with result := .ok, owner := none }
        seq := s.seq.set q { s.seqAt q with remainingJobs := r, cursor := (s.seqAt q).cursor + 1 }
        trace := s.trace ++ notice (s.cfg.jobAt j).endNotif .jobEnd j }) ∧
  (∀ (n : Nat) (ctx : Ctx) (s : State) (q u j : Nat),
    s.undisturbed = true → s.tablesOk = true → s.drvInit = true → q < s.cfg.numSeqs →
    j = tget (s.cfg.seqAt q).jobs (s.seqAt q).cursor →
    (s.unitOf j = u → (s.unitAt u).status = .busy → s.jobReady j = true →
      ((s.cfg.seqAt q).interruptible = false ∨
        ((s.unitAt u).head = [none, none, none, none] ∧ (s.unitAt u).tail = [none, none, none, none] ∧ (s.unitAt u).maxPrio = -1)) →
      ∃ t, startOrScheduleNext (deliver n) ctx q u s = .ok t ∧ t.unit = s.unit ∧ t.seq = s.seq ∧ t.mem = s.mem ∧
        (t.jobAt j).result = .pending ∧ (t.jobAt j).owner = (s.jobAt j).owner ∧ (∀ i, i ≠ j → t.jobAt i = s.jobAt i) ∧
        (t.devAt u).curJob = some j ∧ (∀ u', u' ≠ u → t.devAt u' = s.devAt u' ∧ t.lpspiAt u' = s.lpspiAt u')) ∧
    (s.unitOf j ≠ u → (s.unitAt u).maxPrio < 0 →
      ((s.unitAt (s.unitOf j)).status = .idle → s.jobReady j = true →
        ∃ (t : State) (es : List Entry), startOrScheduleNext (deliver n) ctx q u s = .ok t ∧
          t = { s with
            unit := (s.unit.set (s.unitOf j) { s.unitAt (s.unitOf j) with status := .busy }).set u
              { s.unitAt u with status := .idle }
            job := s.job.set j { s.jobAt j with result := .pending }
            dev := t.dev, dma := t.dma, lpspi := t.lpspi, freeCount := t.freeCount
            trace := s.trace ++ notice (s.cfg.jobAt j).startNotif .jobStart j ++
              [.regWrite (s.unitOf j) (.clkcfg (s.cfg.jobAt j).dev.clockTiming)] ++ es } ∧
          (t.devAt (s.unitOf j)).curJob = some j ∧
          (∀ u', u' ≠ s.unitOf j → t.devAt u' = s.devAt u' ∧ t.lpspiAt u' = s.lpspiAt u') ∧
          (∀ ch, ((s.cfg.unitAt (s.unitOf j)).dmaUsed = false ∨ s.otherChannel (s.unitOf j) ch) → t.dmaAt ch = s.dmaAt ch)) ∧
      ((s.unitAt (s.unitOf j)).status ≠ .idle →
        startOrScheduleNext (deliver n) ctx q u s = .ok { enqueue j s with
          unit := (enqueue j s).unit.set u { s.unitAt u with status := .idle } })))

/-! ## Cancellation -/

/-- `UnlockRemainingJobs` (46_cancel.md R375) touches only jobs still owned by the sequence. -/
def Obligations.UnlockRemainingJobs : Prop := ∀ (s : State) (q : Nat) (jobs : List Nat),
  unlockRemaining q jobs s = { s with job := (unlockRemaining q jobs s).job } ∧
  (∀ j ∈ jobs, (s.jobAt j).owner = some q → (unlockRemaining q jobs s).jobAt j = { s.jobAt j with owner := none }) ∧
  (∀ j, (j ∉ jobs ∨ (s.jobAt j).owner ≠ some q) → (unlockRemaining q jobs s).jobAt j = s.jobAt j)

/-- `CANCEL` of a sequence in range (46_cancel.md R370): nothing to cancel, or the one field it writes when the current job is not in
flight on a slave unit. -/
def Obligations.CancelMarksTheSequence : Prop := ∀ (s : State) (k : BitVec 16),
  s.params.level ≠ .syncOnly → s.drvInit = true → k.toNat < s.cfg.numSeqs →
  (s.seqIsSync k.toNat = true ∨ (s.seqAt k.toNat).result ≠ .pending → exec (.cancel k) s = .next (s.says [] 0)) ∧
  (s.seqIsSync k.toNat = false → (s.seqAt k.toNat).result = .pending → s.slaveInFlight k.toNat = false →
    exec (.cancel k) s =
      .next ({ s with seq := s.seq.set k.toNat { s.seqAt k.toNat with result := .cancelled } }.says [] 0))

/-- `CANCEL` of a sequence whose current job is in flight on a slave unit with nothing waiting (46_cancel.md R370, R374, R375, R378,
45_scheduler.md R345): the forced stop, the finish with `OK`, the clean-up, the unit idle; the unit's own DMA channels stop, the others
are as before. With the module busy for ever the command is stuck (R379): the model's fault, log 16. What the FIFO reset does beside
emptying the FIFOs (20_memory.md R101) is the model's choice, log 41: the waiting command words and the frame in the shifter are dropped, the
command word in force and chip select stay. -/
def Obligations.CancelStopsASlave : Prop := ∀ (s : State) (k : BitVec 16) (j u : Nat),
  s.undisturbed = true → s.tablesOk = true → s.params.level ≠ .syncOnly → s.drvInit = true → k.toNat < s.cfg.numSeqs →
  s.seqIsSync k.toNat = false → (s.seqAt k.toNat).result = .pending → j = s.cursorJob k.toNat → u = s.unitOf j →
  s.slaveInFlight k.toNat = true →
  ((s.lpspiAt u).mbf = true → exec (.cancel k) s = .fault .moduleBusyForever) ∧
  ((s.lpspiAt u).mbf = false → (s.jobAt j).owner = some k.toNat → 0 < (s.seqAt k.toNat).remainingJobs → (s.unitAt u).maxPrio < 0 →
    ∃ t, exec (.cancel k) s = .next t ∧
      t = { s with
        seq := s.seq.set k.toNat { s.seqAt k.toNat with
          result := .cancelled, remainingJobs := (s.seqAt k.toNat).remainingJobs - 1 }
        unit := s.unit.set u { s.unitAt u with status := .idle }
        dev := s.dev.set u { s.devAt u with
          curJob := none, contCSActive := false, txDone := true, rxDone := true, irqEnabled := false }
        lpspi := s.lpspi.set u { s.lpspiAt u with resetTxReq := true, resetRxReq := true, txFifo := [], shifting := none, rxFifo := [] }
        dma := t.dma, job := t.job
        trace := s.trace ++ (if (s.devAt u).irqEnabled = true then [.irqEnable u false] else []) ++
          (if (s.cfg.unitAt u).dmaUsed = true then
            [.dmaStop (s.cfg.unitAt u).dmaTxCh, .dmaStop (s.cfg.unitAt u).dmaRxCh] else []) ++
          [.regRead u (.stat (s.lpspiAt u).tdf (s.lpspiAt u).rdf false), .regWrite u (.ctrl true true)] ++
          notice (s.cfg.jobAt j).endNotif .jobEnd j ++
          notice (s.params.cancelFiresSeqEnd && (s.cfg.seqAt k.toNat).endNotif) .seqEnd k.toNat ++ [.rsp 0] } ∧
      (∀ ch, t.dmaAt ch =
        (if (s.cfg.unitAt u).dmaUsed = true ∧ (ch = (s.cfg.unitAt u).dmaTxCh ∨ ch = (s.cfg.unitAt u).dmaRxCh) then
          { s.dmaAt ch with active := false, done := false } else s.dmaAt ch)) ∧
      t.jobAt j = { s.jobAt j with result := .ok, owner := none } ∧
      (∀ i, i ≠ j → i ∈ (s.cfg.seqAt k.toNat).jobs → (s.jobAt i).owner = some k.toNat →
        t.jobAt i = { s.jobAt i with owner := none }) ∧
      (∀ i, i ≠ j → (i ∉ (s.cfg.seqAt k.toNat).jobs ∨ (s.jobAt i).owner ≠ some k.toNat) → t.jobAt i = s.jobAt i))

/-! ## Events and the hardware around the block -/

/-- `EV_FIFO` in the middle of a channel on a master unit (41_engine_fifo.md R220, R221, R217, R223): one status read, one frame in, one
frame out. -/
def Obligations.FifoEventMovesOneFrame : Prop := ∀ (s : State) (unit : BitVec 4) (j cr ct : Nat) (v : Word) (rest : List Word),
  s.undisturbed = true → s.tablesOk = true → s.memOk = true → s.fifoServed unit.toNat = true →
  s.midChannel unit.toNat j cr ct → (s.lpspiAt unit.toNat).rxFifo = v :: rest →
  ∃ t w, exec (.evFifo unit) s = .next t ∧
    s.movesOneFrame t unit.toNat cr ct v w rest
      [.regRead unit.toNat (.fifostat (s.lpspiAt unit.toNat).txCount (s.lpspiAt unit.toNat).rxCount),
        .regRead unit.toNat (.rxdata v), .regWrite unit.toNat (.txdata w)]

/-- `EV_FIFO` that brings the last frame of a job to a master unit with nothing waiting (41_engine_fifo.md R221, R223, R225, R236;
45_scheduler.md R342, R345): the job is `OK` and unlocked, the unit is idle, the notifications follow. If it was the last job of its
sequence, so is the sequence; if the sequence was cancelled, all its jobs are unlocked (46_cancel.md R374, R375, R376). -/
def Obligations.LastFrameFinishesTheSequence : Prop :=
  ∀ (s : State) (unit : BitVec 4) (j c q r : Nat) (v : Word) (rest : List Word),
  s.undisturbed = true → s.tablesOk = true → s.memOk = true → s.fifoServed unit.toNat = true →
  (s.cfg.unitAt unit.toNat).slave = false → (s.devAt unit.toNat).curJob = some j → j < s.cfg.numJobs →
  s.unitOf j = unit.toNat → (s.devAt unit.toNat).txDone = true → (s.devAt unit.toNat).rxDone = false →
  c = s.chanOf j (s.devAt unit.toNat).rxChanIdx → (s.devAt unit.toNat).rxChanIdx + 1 = s.numChannelsOf j →
  (s.devAt unit.toNat).rxRemaining = 1 → s.chanReady c = true → (s.lpspiAt unit.toNat).rxFifo = v :: rest →
  (s.jobAt j).result ≠ .ok → (s.jobAt j).owner = some q → q < s.cfg.numSeqs →
  (s.seqAt q).remainingJobs = r + 1 → (s.unitAt unit.toNat).maxPrio < 0 →
  ((s.seqAt q).result ≠ .cancelled → r = 0 →
    ∃ t, exec (.evFifo unit) s = .next t ∧
      t = { s with
        mem := t.mem
        job := s.job.set j { s.jobAt j with result := .ok, owner := none }
        seq := s.seq.set q { s.seqAt q with result := .ok, remainingJobs := 0 }
        unit := s.unit.set unit.toNat { s.unitAt unit.toNat with status := .idle }
        dev := s.dev.set unit.toNat { s.devAt unit.toNat with
          rxRemaining := 0, rxDone := true, curJob := none, irqEnabled := false }
        lpspi := s.lpspi.set unit.toNat { s.lpspiAt unit.toNat with rxFifo := rest }
        trace := s.trace ++
          [.regRead unit.toNat (.fifostat (s.lpspiAt unit.toNat).txCount (s.lpspiAt unit.toNat).rxCount),
            .regRead unit.toNat (.rxdata v), .irqEnable unit.toNat false] ++
          notice (s.cfg.jobAt j).endNotif .jobEnd j ++ notice (s.cfg.seqAt q).endNotif .seqEnd q } ∧
      s.storesFrame t.mem c (s.rxIndex unit.toNat c) v) ∧
  ((s.seqAt q).result = .cancelled →
    ∃ t, exec (.evFifo unit) s = .next t ∧
      t = { s with
        mem := t.mem, job := t.job
        seq := s.seq.set q { s.seqAt q with remainingJobs := r }
        unit := s.unit.set unit.toNat { s.unitAt unit.toNat with status := .idle }
        dev := s.dev.set unit.toNat { s.devAt unit.toNat with
          rxRemaining := 0, rxDone := true, curJob := none, irqEnabled := false }
        lpspi := s.lpspi.set unit.toNat { s.lpspiAt unit.toNat with rxFifo := rest }
        trace := s.trace ++
          [.regRead unit.toNat (.fifostat (s.lpspiAt unit.toNat).txCount (s.lpspiAt unit.toNat).rxCount),
            .regRead unit.toNat (.rxdata v), .irqEnable unit.toNat false] ++
          notice (s.cfg.jobAt j).endNotif .jobEnd j ++
          notice (s.params.cancelFiresSeqEnd && (s.cfg.seqAt q).endNotif) .seqEnd q } ∧
      s.storesFrame t.mem c (s.rxIndex unit.toNat c) v ∧
      t.jobAt j = { s.jobAt j with result := .ok, owner := none } ∧
      (∀ i, i ≠ j → i ∈ (s.cfg.seqAt q).jobs → (s.jobAt i).owner = some q → t.jobAt i = { s.jobAt i with owner := none }) ∧
      (∀ i, i ≠ j → (i ∉ (s.cfg.seqAt q).jobs ∨ (s.jobAt i).owner ≠ some q) → t.jobAt i = s.jobAt i))

/-- `EV_FIFO` on a slave unit (41_engine_fifo.md R222). In the middle of a channel it stores what has arrived, at most one frame more than
the receive watermark in a dispatch, and refills the transmit FIFO. Once the last channel is full it reads and drops what arrives; the
transmit FIFO is full there, so nothing is sent. -/
def Obligations.SlaveDispatch : Prop := ∀ (s : State) (unit : BitVec 4),
  s.undisturbed = true → s.tablesOk = true → s.fifoServed unit.toNat = true →
  (∀ j cr ct m r : Nat, s.memOk = true → s.midSlave unit.toNat j cr ct m r →
    ∃ t ws, exec (.evFifo unit) s = .next t ∧
      s.movesSlaveFrames t unit.toNat cr ct m r ws
        ([.regRead unit.toNat (.fifostat (s.lpspiAt unit.toNat).txCount (s.lpspiAt unit.toNat).rxCount)] ++
          ((s.lpspiAt unit.toNat).rxFifo.take m).map (fun v => .regRead unit.toNat (.rxdata v)) ++
          (List.range r).map (fun i => .regWrite unit.toNat (.txdata (ws i))))) ∧
  (∀ j drop : Nat, (s.cfg.unitAt unit.toNat).slave = true → (s.devAt unit.toNat).curJob = some j →
    (s.devAt unit.toNat).rxDone = true → (s.devAt unit.toNat).txDone = false →
    s.params.fifoSize ≤ (s.lpspiAt unit.toNat).txCount →
    drop = min (s.lpspiAt unit.toNat).rxFifo.length ((s.cfg.channelAt (s.chanOf j 0)).wmRx + 1) →
    exec (.evFifo unit) s = .next { s with
      lpspi := s.lpspi.set unit.toNat { s.lpspiAt unit.toNat with rxFifo := (s.lpspiAt unit.toNat).rxFifo.drop drop }
      trace := s.trace ++
        [.regRead unit.toNat (.fifostat (s.lpspiAt unit.toNat).txCount (s.lpspiAt unit.toNat).rxCount)] ++
        ((s.lpspiAt unit.toNat).rxFifo.take drop).map fun v => .regRead unit.toNat (.rxdata v) })

/-- A DMA completion before the end of a job (42_engine_dma.md R258, R260): with frames left of the channel the next pass is loaded, at
most 511 iterations, the descriptor's running addresses as they stand; with none left the side moves on to the job's next channel, whose
descriptor is written and started (R254, R256). Every other DMA channel is as before. -/
def Obligations.DmaCompletionReloads : Prop := ∀ (s : State) (unit : BitVec 4) (u j : Nat),
  u = unit.toNat → s.tablesOk = true → (s.devAt u).curJob = some j →
  (∀ ch r, ch = (s.cfg.unitAt u).dmaTxCh → r = (s.devAt u).remainingData → s.dmaServed u ch = true → (s.devAt u).txDone = false →
    (0 < r →
      ∃ t, exec (.evDmaTx unit) s = .next t ∧
        t = { s with
          dev := s.dev.set u { s.devAt u with
            remainingData := r - min r 511
            sentFrames := (s.chanAt (s.chanOf j (s.devAt u).txChanIdx)).length - r }
          dma := t.dma, trace := s.trace ++ [.dmaAck ch, .dmaSetIter ch (min r 511), .dmaStart ch] } ∧
        t.dmaAt ch = { s.dmaAt ch with iterLeft := min r 511, active := true, done := false } ∧
        ∀ ch', ch' ≠ ch → t.dmaAt ch' = s.dmaAt ch') ∧
    (∀ (c inc : Nat) (src : DmaEnd) (cmd : CmdWord) (ws : List RegWrite) (tcd : Tcd), r = 0 → s.undisturbed = true →
      (s.devAt u).txChanIdx + 1 < s.numChannelsOf j → c = s.chanOf j ((s.devAt u).txChanIdx + 1) → 0 < (s.chanAt c).length →
      j < s.cfg.numJobs → s.sendsFrom c src inc → cmd = chanCmd s.cfg j c (s.devAt u).contCSActive →
      ws = (if cmd = (s.devAt u).cmdWord then [] else [.txcmd cmd]) →
      tcd = { src := src, dst := .txData u, size := bpf (s.widthOf c), iter := min (s.chanAt c).length 511, srcInc := inc, dstInc := 0 } →
      ∃ t, exec (.evDmaTx unit) s = .next t ∧
        t = { s with
          dev := s.dev.set u { s.devAt u with
            txChanIdx := (s.devAt u).txChanIdx + 1, sentFrames := 0
            remainingData := (s.chanAt c).length - min (s.chanAt c).length 511, cmdWord := cmd }
          lpspi := s.lpspi.set u ((s.lpspiAt u).writes s.params.fifoSize s.freeCount ws)
          dma := t.dma
          trace := s.trace ++ [.dmaAck ch] ++ ws.map (.regWrite u) ++ [.dmaCfg ch tcd, .dmaStart ch] } ∧
        t.dmaAt ch = .armed tcd ∧ ∀ ch', ch' ≠ ch → t.dmaAt ch' = s.dmaAt ch')) ∧
  (∀ ch r, ch = (s.cfg.unitAt u).dmaRxCh → r = (s.devAt u).receivedData → s.dmaServed u ch = true → (s.devAt u).rxDone = false →
    (0 < r →
      ∃ t, exec (.evDmaRx unit) s = .next t ∧
        t = { s with
          dev := s.dev.set u { s.devAt u with receivedData := r - min r 511 }
          dma := t.dma, trace := s.trace ++ [.dmaAck ch, .dmaSetIter ch (min r 511), .dmaStart ch] } ∧
        t.dmaAt ch = { s.dmaAt ch with iterLeft := min r 511, active := true, done := false } ∧
        ∀ ch', ch' ≠ ch → t.dmaAt ch' = s.dmaAt ch') ∧
    (∀ (c inc : Nat) (dst : DmaEnd) (tcd : Tcd), r = 0 → (s.devAt u).rxChanIdx + 1 < s.numChannelsOf j →
      c = s.chanOf j ((s.devAt u).rxChanIdx + 1) → 0 < (s.chanAt c).length → j < s.cfg.numJobs → s.keepsAt c dst inc →
      tcd = { src := .rxData u, dst := dst, size := bpf (s.widthOf c), iter := min (s.chanAt c).length 511, srcInc := 0, dstInc := inc } →
      ∃ t, exec (.evDmaRx unit) s = .next t ∧
        t = { s with
          dev := s.dev.set u { s.devAt u with
            rxChanIdx := (s.devAt u).rxChanIdx + 1
            receivedData := (s.chanAt c).length - min (s.chanAt c).length 511 }
          dma := t.dma, trace := s.trace ++ [.dmaAck ch, .dmaCfg ch tcd, .dmaStart ch] } ∧
        t.dmaAt ch = .armed tcd ∧ ∀ ch', ch' ≠ ch → t.dmaAt ch' = s.dmaAt ch'))

/-- The last pass of the last channel on a DMA unit (42_engine_dma.md R258, R260): the transmit side clears the continuous-CS bit and is
done; the receive side, with the transmit side done, finishes the job. Every other DMA channel is as before. -/
def Obligations.DmaLastPass : Prop := ∀ (s : State) (unit : BitVec 4) (j : Nat),
  s.undisturbed = true → s.tablesOk = true → (s.devAt unit.toNat).curJob = some j →
  (∀ ch ws, ch = (s.cfg.unitAt unit.toNat).dmaTxCh → s.dmaServed unit.toNat ch = true → (s.devAt unit.toNat).remainingData = 0 →
    s.numChannelsOf j ≤ (s.devAt unit.toNat).txChanIdx + 1 → (s.devAt unit.toNat).rxDone = false →
    ws = (if (s.devAt unit.toNat).contCSActive = true then [RegWrite.txcmd { (s.devAt unit.toNat).cmdWord with cont := false }]
      else []) →
    ∃ t, exec (.evDmaTx unit) s = .next t ∧
      t = { s with
        dev := s.dev.set unit.toNat { s.devAt unit.toNat with
          sentFrames := (s.chanAt (s.chanOf j (s.devAt unit.toNat).txChanIdx)).length, txDone := true, contCSActive := false
          cmdWord := if (s.devAt unit.toNat).contCSActive = true then { (s.devAt unit.toNat).cmdWord with cont := false }
            else (s.devAt unit.toNat).cmdWord }
        lpspi := s.lpspi.set unit.toNat ((s.lpspiAt unit.toNat).writes s.params.fifoSize s.freeCount ws)
        dma := t.dma
        trace := s.trace ++ [.dmaAck ch] ++ ws.map (.regWrite unit.toNat) } ∧
      t.dmaAt ch = { s.dmaAt ch with done := false } ∧ ∀ ch', ch' ≠ ch → t.dmaAt ch' = s.dmaAt ch') ∧
  (∀ ch q, ch = (s.cfg.unitAt unit.toNat).dmaRxCh → s.dmaServed unit.toNat ch = true → (s.devAt unit.toNat).receivedData = 0 →
    s.numChannelsOf j ≤ (s.devAt unit.toNat).rxChanIdx + 1 → (s.devAt unit.toNat).txDone = true → j < s.cfg.numJobs →
    s.unitOf j = unit.toNat → (s.jobAt j).result ≠ .ok → (s.jobAt j).owner = some q → q < s.cfg.numSeqs →
    (s.seqAt q).result ≠ .cancelled → (s.seqAt q).remainingJobs = 1 → (s.unitAt unit.toNat).maxPrio < 0 →
    (s.devAt unit.toNat).irqEnabled = false →
    ∃ t, exec (.evDmaRx unit) s = .next t ∧
      t = { s with
        job := s.job.set j { s.jobAt j with result := .ok, owner := none }
        seq := s.seq.set q { s.seqAt q with result := .ok, remainingJobs := 0 }
        unit := s.unit.set unit.toNat { s.unitAt unit.toNat with status := .idle }
        dev := s.dev.set unit.toNat { s.devAt unit.toNat with rxDone := true, curJob := none }
        dma := t.dma
        trace := s.trace ++ [.dmaAck ch] ++ notice (s.cfg.jobAt j).endNotif .jobEnd j ++
          notice (s.cfg.seqAt q).endNotif .seqEnd q } ∧
      t.dmaAt ch = { s.dmaAt ch with done := false } ∧ ∀ ch', ch' ≠ ch → t.dmaAt ch' = s.dmaAt ch')

/-- The six control actions on the DMA engine (42_engine_dma.md R251): each one trace entry, each on its channel alone. -/
def Obligations.DmaControlActions : Prop := ∀ (s : State) (ch ch' u n : Nat) (tcd : Tcd),
  (dmaBindTx ch u s = { s with dma := (dmaBindTx ch u s).dma, trace := s.trace ++ [.dmaBind ch (.txData u)] } ∧
    (dmaBindTx ch u s).dmaAt ch =
      { s.dmaAt ch with tcd := { (s.dmaAt ch).tcd with dst := .txData u, dstInc := 0 }, active := false, done := false }) ∧
  (dmaBindRx ch u s = { s with dma := (dmaBindRx ch u s).dma, trace := s.trace ++ [.dmaBind ch (.rxData u)] } ∧
    (dmaBindRx ch u s).dmaAt ch =
      { s.dmaAt ch with tcd := { (s.dmaAt ch).tcd with src := .rxData u, srcInc := 0 }, active := false, done := false }) ∧
  (dmaCfg ch tcd s = { s with dma := (dmaCfg ch tcd s).dma, trace := s.trace ++ [.dmaCfg ch tcd] } ∧
    (dmaCfg ch tcd s).dmaAt ch =
      { s.dmaAt ch with tcd := tcd, curSrc := tcd.src, curDst := tcd.dst, iterLeft := tcd.iter }) ∧
  (dmaSetIter ch n s = { s with dma := (dmaSetIter ch n s).dma, trace := s.trace ++ [.dmaSetIter ch n] } ∧
    (dmaSetIter ch n s).dmaAt ch = { s.dmaAt ch with iterLeft := n }) ∧
  (dmaStart ch s = { s with dma := (dmaStart ch s).dma, trace := s.trace ++ [.dmaStart ch] } ∧
    (dmaStart ch s).dmaAt ch = { s.dmaAt ch with done := false, active := true }) ∧
  (dmaStop ch s = { s with dma := (dmaStop ch s).dma, trace := s.trace ++ [.dmaStop ch] } ∧
    (dmaStop ch s).dmaAt ch = { s.dmaAt ch with active := false, done := false }) ∧
  (dmaAck ch s = { s with dma := (dmaAck ch s).dma, trace := s.trace ++ [.dmaAck ch] } ∧
    (dmaAck ch s).dmaAt ch = { s.dmaAt ch with done := false }) ∧
  (ch' ≠ ch → ∀ t, t ∈ [dmaBindTx ch u s, dmaBindRx ch u s, dmaCfg ch tcd s, dmaSetIter ch n s, dmaStart ch s, dmaStop ch s,
    dmaAck ch s] → t.dmaAt ch' = s.dmaAt ch')

/-- The DMA engine's own moves (42_engine_dma.md R268): from memory or the default value to `TXDATA`, from `RXDATA` to memory or the
discard word, one frame each, and the completion event; a move that is not enabled does nothing. Memory admits them only inside a
buffer the host has handed over (20_memory.md R105; the fault is the model's, log 9). What the discard word holds afterwards is the
model's choice (log 29). -/
def Obligations.DmaEngineMoves : Prop := ∀ (s : State) (u : Nat), s.tablesOk = true → s.drvInit = true → u < s.cfg.numUnits →
  (∀ ch d, ch = (s.cfg.unitAt u).dmaTxCh → d = s.dmaAt ch →
    ((s.cfg.unitAt u).dmaUsed = false ∨ d.active = false ∨ d.iterLeft = 0 ∨ s.txRoom u = 0 →
      agentMove (.dmaTx u) s = .ok s) ∧
    ((s.cfg.unitAt u).dmaUsed = true → d.active = true → 0 < d.iterLeft → 0 < s.txRoom u →
      (∀ a, d.curSrc = .mem a → s.handedOver a d.tcd.size = false → agentMove (.dmaTx u) s = .error (.fault .outsideBuffer)) ∧
      ∀ (v : Word) (next : DmaEnd),
        ((∃ c, d.curSrc = .defaultWord c ∧ next = .defaultWord c ∧ v = truncW (s.widthOf c) (s.cfg.channelAt c).defaultValue) ∨
          (∃ a, d.curSrc = .mem a ∧ next = .mem (a + d.tcd.srcInc) ∧ s.handedOver a d.tcd.size = true ∧
            a + d.tcd.size ≤ addressCount ∧ v = BitVec.ofNat 32 (memRead s.mem a d.tcd.size))) →
        ∃ t, agentMove (.dmaTx u) s = .ok t ∧
          t = { s with
            lpspi := s.lpspi.set u { s.lpspiAt u with txFifo := (s.lpspiAt u).txFifo ++ [.frame v] }
            dma := t.dma
            raised := (if d.iterLeft = 1 ∧ (s.devAt u).asyncMode = .interrupt then
              s.raised ++ [eventWord 2 (BitVec.ofNat 4 u)] else s.raised)
            trace := s.trace ++ [.dmaWrite u v] } ∧
          t.dmaAt ch = { d with
            curSrc := next, iterLeft := d.iterLeft - 1, active := decide (d.iterLeft ≠ 1), done := d.done || decide (d.iterLeft = 1) } ∧
          ∀ ch', ch' ≠ ch → t.dmaAt ch' = s.dmaAt ch')) ∧
  (∀ ch d, ch = (s.cfg.unitAt u).dmaRxCh → d = s.dmaAt ch →
    ((s.cfg.unitAt u).dmaUsed = false ∨ d.active = false ∨ d.iterLeft = 0 ∨ (s.lpspiAt u).rxFifo = [] →
      agentMove (.dmaRx u) s = .ok s) ∧
    ((s.cfg.unitAt u).dmaUsed = true → d.active = true → 0 < d.iterLeft → ∀ v rest, (s.lpspiAt u).rxFifo = v :: rest →
      (∀ a, d.curDst = .mem a → s.handedOver a d.tcd.size = false → agentMove (.dmaRx u) s = .error (.fault .outsideBuffer)) ∧
      ∀ next : DmaEnd,
        ((d.curDst = .discardWord ∧ next = .discardWord) ∨
          (∃ a, d.curDst = .mem a ∧ next = .mem (a + d.tcd.dstInc) ∧ s.handedOver a d.tcd.size = true ∧
            a + d.tcd.size ≤ addressCount)) →
        ∃ t, agentMove (.dmaRx u) s = .ok t ∧
          t = { s with
            lpspi := s.lpspi.set u { s.lpspiAt u with rxFifo := rest }
            mem := t.mem, discardWord := t.discardWord, dma := t.dma
            raised := (if d.iterLeft = 1 ∧ (s.devAt u).asyncMode = .interrupt then
              s.raised ++ [eventWord 3 (BitVec.ofNat 4 u)] else s.raised)
            trace := s.trace ++ [.dmaRead u v] } ∧
          (∀ a, d.curDst = .mem a → t.discardWord = s.discardWord ∧
            (s.memOk = true → d.tcd.size = 1 ∨ d.tcd.size = 2 ∨ d.tcd.size = 4 →
              memRead t.mem a d.tcd.size = v.toNat % 256 ^ d.tcd.size ∧
              ∀ x, x < a ∨ a + d.tcd.size ≤ x → readByte t.mem x = readByte s.mem x)) ∧
          (d.curDst = .discardWord → t.mem = s.mem ∧
            (d.tcd.size = 1 ∨ d.tcd.size = 2 ∨ d.tcd.size = 4 → t.discardWord.toNat = v.toNat % 256 ^ d.tcd.size)) ∧
          t.dmaAt ch = { d with
            curDst := next, iterLeft := d.iterLeft - 1, active := decide (d.iterLeft ≠ 1), done := d.done || decide (d.iterLeft = 1) } ∧
          ∀ ch', ch' ≠ ch → t.dmaAt ch' = s.dmaAt ch'))

/-- Chunk arithmetic (42_engine_dma.md R253): after `k` passes `total - 511 * k` frames are left, so the number of passes is
`ceil (total / 511)`, and all passes but the last are of 511 frames. -/
def Obligations.ChunkArithmetic : Prop :=
  (∀ total k : Nat, (fun r => r - chunk r)^[k] total = total - 511 * k) ∧
  (∀ total : Nat, (fun r => r - chunk r)^[(total + 510) / 511] total = 0 ∧
    ∀ k, k + 1 < (total + 510) / 511 → chunk ((fun r => r - chunk r)^[k] total) = 511) ∧
  (∀ total k : Nat, k < (total + 510) / 511 → 0 < chunk ((fun r => r - chunk r)^[k] total)) ∧
  (chunk 511 = 511 ∧ chunk (512 - chunk 512) = 1 ∧ (fun r => r - chunk r)^[2] 1200 = 178 ∧
    (fun r => r - chunk r)^[128] 65535 = 127)

/-- The peripheral (10_state.md R68): a frame written with room is appended, and the count falls by one when a frame is taken to shift,
before its answer comes (P1; 44_sync_transmit.md R307, R316); the oldest received frame is read (P2); a shift lets one frame out and
brings one in, zero-extended from the frame width (P3, P2); the flags compare with the watermarks (P4); a command word takes effect
in order with the frames around it, one in the shifter included (P5). Not in R68 but the model's choice: that a shift with no room in the
receive FIFO does nothing (60_exceptions.md R407; log 14), and that the shifter holds one frame, which waits there for its answer (log 17). -/
def Obligations.PeripheralContract : Prop :=
  (∀ (fifoSize free : Nat) (p : Lpspi) (v : Word), p.txCount < fifoSize →
    p.write fifoSize free (.txdata v) = { p with txFifo := p.txFifo ++ [.frame v] } ∧
    (p.write fifoSize free (.txdata v)).txCount = p.txCount + 1) ∧
  (∀ (s : State) (u : Nat) (v : Word) (rest : List Word), (s.lpspiAt u).rxFifo = v :: rest →
    s.popRx u = (v, { s with lpspi := s.lpspi.set u { s.lpspiAt u with rxFifo := rest } })) ∧
  (∀ (p : Lpspi) (x : Word) (rest : List TxItem), p.shifting = none → p.txFifo = .frame x :: rest →
    p.take = { p with txFifo := rest, shifting := some x } ∧ p.take.txCount + 1 = p.txCount) ∧
  (∀ (fifoSize : Nat) (p : Lpspi) (v x : Word) (rest : List TxItem),
    (p.shifting = some x ∨ p.shifting = none ∧ p.txFifo = .frame x :: rest) →
    (fifoSize ≤ p.rxCount → p.shift fifoSize v = p) ∧
    (p.rxCount < fifoSize →
      (∃ f : Word, f.toNat = v.toNat % 2 ^ p.shiftCmd.width.bits ∧ (p.shift fifoSize v).rxFifo = p.rxFifo ++ [f]) ∧
      (p.shift fifoSize v).txCount + (if p.shifting = none then 1 else 0) = p.txCount ∧
      (p.shift fifoSize v).shifting = none ∧ (p.shift fifoSize v).wire = p.wire ++ [(p.shiftCmd, x)])) ∧
  (∀ p : Lpspi, (p.tdf = true ↔ p.txCount ≤ p.wmTx) ∧ (p.rdf = true ↔ p.wmRx < p.rxCount)) ∧
  (∀ (fifoSize f f' : Nat) (p : Lpspi) (z : Option Word) (xs : List Word) (y : Word) (c : CmdWord) (vs : List Word),
    p.shifting = z → p.txFifo = xs.map .frame → vs.length = (z.toList ++ xs).length + 1 → xs.length < fifoSize →
    p.rxFifo.length + vs.length ≤ fifoSize →
    (vs.foldl (fun q v => q.shift fifoSize v) ((p.write fifoSize f (.txcmd c)).write fifoSize f' (.txdata y))).wire =
      p.wire ++ (z.toList ++ xs).map (fun x => (p.shiftCmd, x)) ++ [(c, y)])

/-- `TxFrameValue` and `RxStoreFrame` (20_memory.md R94, R95): the default value cut to the width, the frame in memory read
little-endian, the received value cut and stored, or nothing. No frame past the buffer is touched (R98; the fault is the model's,
log 9). -/
def Obligations.FrameOperands : Prop := ∀ (s : State) (c i : Nat) (v : Word),
  ((s.chanAt c).useDefault = true ∨ (s.chanAt c).txPtr = none →
    ∃ d : Word, txFrameValue s c (s.widthOf c) i = .ok d ∧
      d.toNat = (s.cfg.channelAt c).defaultValue.toNat % 2 ^ (s.widthOf c).bits) ∧
  (∀ p, (s.chanAt c).useDefault = false → (s.chanAt c).txPtr = some p →
    ((s.chanAt c).length ≤ i → txFrameValue s c (s.widthOf c) i = .error (.fault .outsideBuffer)) ∧
    (i < (s.chanAt c).length → frameAddr p (s.widthOf c) i + bpf (s.widthOf c) ≤ addressCount →
      ∃ d : Word, txFrameValue s c (s.widthOf c) i = .ok d ∧
        d.toNat = memRead s.mem (p.toNat + i * ((s.widthOf c).bits / 8)) ((s.widthOf c).bits / 8))) ∧
  ((s.chanAt c).discardRx = true ∨ (s.chanAt c).rxPtr = none → rxStoreFrame s c (s.widthOf c) i v = .ok s) ∧
  (∀ p, (s.chanAt c).discardRx = false → (s.chanAt c).rxPtr = some p →
    ((s.chanAt c).length ≤ i → rxStoreFrame s c (s.widthOf c) i v = .error (.fault .outsideBuffer)) ∧
    (i < (s.chanAt c).length → s.memOk = true → frameAddr p (s.widthOf c) i + bpf (s.widthOf c) ≤ addressCount →
      ∃ m, rxStoreFrame s c (s.widthOf c) i v = .ok { s with mem := m } ∧ s.storesFrame m c i v))
end

