-- ==== Sys2Proof/Laws/State.lean ====
section
/-! SUPPORT. One lemma per field per update of `State`, and what the accessors read after a table was written. -/

namespace Sys2Proof.Machine

/-! `setChan` -/

@[simp] theorem setChan_params (s : State) (c : Nat) (v : ChanState) : (s.setChan c v).params = s.params := rfl
@[simp] theorem setChan_hostConfigs (s : State) (c : Nat) (v : ChanState) : (s.setChan c v).hostConfigs = s.hostConfigs := rfl
@[simp] theorem setChan_cfg (s : State) (c : Nat) (v : ChanState) : (s.setChan c v).cfg = s.cfg := rfl
@[simp] theorem setChan_drvInit (s : State) (c : Nat) (v : ChanState) : (s.setChan c v).drvInit = s.drvInit := rfl
@[simp] theorem setChan_syncBusyMask (s : State) (c : Nat) (v : ChanState) : (s.setChan c v).syncBusyMask = s.syncBusyMask := rfl
@[simp] theorem setChan_seqUsedHWUnits (s : State) (c : Nat) (v : ChanState) : (s.setChan c v).seqUsedHWUnits = s.seqUsedHWUnits := rfl
@[simp] theorem setChan_seqCache (s : State) (c : Nat) (v : ChanState) : (s.setChan c v).seqCache = s.seqCache := rfl
@[simp] theorem setChan_chan (s : State) (c : Nat) (v : ChanState) : (s.setChan c v).chan = tset s.chan c v := rfl
@[simp] theorem setChan_job (s : State) (c : Nat) (v : ChanState) : (s.setChan c v).job = s.job := rfl
@[simp] theorem setChan_seq (s : State) (c : Nat) (v : ChanState) : (s.setChan c v).seq = s.seq := rfl
@[simp] theorem setChan_unit (s : State) (c : Nat) (v : ChanState) : (s.setChan c v).unit = s.unit := rfl
@[simp] theorem setChan_dev (s : State) (c : Nat) (v : ChanState) : (s.setChan c v).dev = s.dev := rfl
@[simp] theorem setChan_dma (s : State) (c : Nat) (v : ChanState) : (s.setChan c v).dma = s.dma := rfl
@[simp] theorem setChan_discardWord (s : State) (c : Nat) (v : ChanState) : (s.setChan c v).discardWord = s.discardWord := rfl
@[simp] theorem setChan_lpspi (s : State) (c : Nat) (v : ChanState) : (s.setChan c v).lpspi = s.lpspi := rfl
@[simp] theorem setChan_mem (s : State) (c : Nat) (v : ChanState) : (s.setChan c v).mem = s.mem := rfl
@[simp] theorem setChan_trace (s : State) (c : Nat) (v : ChanState) : (s.setChan c v).trace = s.trace := rfl
@[simp] theorem setChan_inputs (s : State) (c : Nat) (v : ChanState) : (s.setChan c v).inputs = s.inputs := rfl
@[simp] theorem setChan_raised (s : State) (c : Nat) (v : ChanState) : (s.setChan c v).raised = s.raised := rfl
@[simp] theorem setChan_freeCount (s : State) (c : Nat) (v : ChanState) : (s.setChan c v).freeCount = s.freeCount := rfl

/-! `setJob` -/

@[simp] theorem setJob_params (s : State) (j : Nat) (v : JobState) : (s.setJob j v).params = s.params := rfl
@[simp] theorem setJob_hostConfigs (s : State) (j : Nat) (v : JobState) : (s.setJob j v).hostConfigs = s.hostConfigs := rfl
@[simp] theorem setJob_cfg (s : State) (j : Nat) (v : JobState) : (s.setJob j v).cfg = s.cfg := rfl
@[simp] theorem setJob_drvInit (s : State) (j : Nat) (v : JobState) : (s.setJob j v).drvInit = s.drvInit := rfl
@[simp] theorem setJob_syncBusyMask (s : State) (j : Nat) (v : JobState) : (s.setJob j v).syncBusyMask = s.syncBusyMask := rfl
@[simp] theorem setJob_seqUsedHWUnits (s : State) (j : Nat) (v : JobState) : (s.setJob j v).seqUsedHWUnits = s.seqUsedHWUnits := rfl
@[simp] theorem setJob_seqCache (s : State) (j : Nat) (v : JobState) : (s.setJob j v).seqCache = s.seqCache := rfl
@[simp] theorem setJob_chan (s : State) (j : Nat) (v : JobState) : (s.setJob j v).chan = s.chan := rfl
@[simp] theorem setJob_job (s : State) (j : Nat) (v : JobState) : (s.setJob j v).job = tset s.job j v := rfl
@[simp] theorem setJob_seq (s : State) (j : Nat) (v : JobState) : (s.setJob j v).seq = s.seq := rfl
@[simp] theorem setJob_unit (s : State) (j : Nat) (v : JobState) : (s.setJob j v).unit = s.unit := rfl
@[simp] theorem setJob_dev (s : State) (j : Nat) (v : JobState) : (s.setJob j v).dev = s.dev := rfl
@[simp] theorem setJob_dma (s : State) (j : Nat) (v : JobState) : (s.setJob j v).dma = s.dma := rfl
@[simp] theorem setJob_discardWord (s : State) (j : Nat) (v : JobState) : (s.setJob j v).discardWord = s.discardWord := rfl
@[simp] theorem setJob_lpspi (s : State) (j : Nat) (v : JobState) : (s.setJob j v).lpspi = s.lpspi := rfl
@[simp] theorem setJob_mem (s : State) (j : Nat) (v : JobState) : (s.setJob j v).mem = s.mem := rfl
@[simp] theorem setJob_trace (s : State) (j : Nat) (v : JobState) : (s.setJob j v).trace = s.trace := rfl
@[simp] theorem setJob_inputs (s : State) (j : Nat) (v : JobState) : (s.setJob j v).inputs = s.inputs := rfl
@[simp] theorem setJob_raised (s : State) (j : Nat) (v : JobState) : (s.setJob j v).raised = s.raised := rfl
@[simp] theorem setJob_freeCount (s : State) (j : Nat) (v : JobState) : (s.setJob j v).freeCount = s.freeCount := rfl

/-! `setSeq` -/

@[simp] theorem setSeq_params (s : State) (q : Nat) (v : SeqState) : (s.setSeq q v).params = s.params := rfl
@[simp] theorem setSeq_hostConfigs (s : State) (q : Nat) (v : SeqState) : (s.setSeq q v).hostConfigs = s.hostConfigs := rfl
@[simp] theorem setSeq_cfg (s : State) (q : Nat) (v : SeqState) : (s.setSeq q v).cfg = s.cfg := rfl
@[simp] theorem setSeq_drvInit (s : State) (q : Nat) (v : SeqState) : (s.setSeq q v).drvInit = s.drvInit := rfl
@[simp] theorem setSeq_syncBusyMask (s : State) (q : Nat) (v : SeqState) : (s.setSeq q v).syncBusyMask = s.syncBusyMask := rfl
@[simp] theorem setSeq_seqUsedHWUnits (s : State) (q : Nat) (v : SeqState) : (s.setSeq q v).seqUsedHWUnits = s.seqUsedHWUnits := rfl
@[simp] theorem setSeq_seqCache (s : State) (q : Nat) (v : SeqState) : (s.setSeq q v).seqCache = s.seqCache := rfl
@[simp] theorem setSeq_chan (s : State) (q : Nat) (v : SeqState) : (s.setSeq q v).chan = s.chan := rfl
@[simp] theorem setSeq_job (s : State) (q : Nat) (v : SeqState) : (s.setSeq q v).job = s.job := rfl
@[simp] theorem setSeq_seq (s : State) (q : Nat) (v : SeqState) : (s.setSeq q v).seq = tset s.seq q v := rfl
@[simp] theorem setSeq_unit (s : State) (q : Nat) (v : SeqState) : (s.setSeq q v).unit = s.unit := rfl
@[simp] theorem setSeq_dev (s : State) (q : Nat) (v : SeqState) : (s.setSeq q v).dev = s.dev := rfl
@[simp] theorem setSeq_dma (s : State) (q : Nat) (v : SeqState) : (s.setSeq q v).dma = s.dma := rfl
@[simp] theorem setSeq_discardWord (s : State) (q : Nat) (v : SeqState) : (s.setSeq q v).discardWord = s.discardWord := rfl
@[simp] theorem setSeq_lpspi (s : State) (q : Nat) (v : SeqState) : (s.setSeq q v).lpspi = s.lpspi := rfl
@[simp] theorem setSeq_mem (s : State) (q : Nat) (v : SeqState) : (s.setSeq q v).mem = s.mem := rfl
@[simp] theorem setSeq_trace (s : State) (q : Nat) (v : SeqState) : (s.setSeq q v).trace = s.trace := rfl
@[simp] theorem setSeq_inputs (s : State) (q : Nat) (v : SeqState) : (s.setSeq q v).inputs = s.inputs := rfl
@[simp] theorem setSeq_raised (s : State) (q : Nat) (v : SeqState) : (s.setSeq q v).raised = s.raised := rfl
@[simp] theorem setSeq_freeCount (s : State) (q : Nat) (v : SeqState) : (s.setSeq q v).freeCount = s.freeCount := rfl

/-! `setUnit` -/

@[simp] theorem setUnit_params (s : State) (u : Nat) (v : UnitQ) : (s.setUnit u v).params = s.params := rfl
@[simp] theorem setUnit_hostConfigs (s : State) (u : Nat) (v : UnitQ) : (s.setUnit u v).hostConfigs = s.hostConfigs := rfl
@[simp] theorem setUnit_cfg (s : State) (u : Nat) (v : UnitQ) : (s.setUnit u v).cfg = s.cfg := rfl
@[simp] theorem setUnit_drvInit (s : State) (u : Nat) (v : UnitQ) : (s.setUnit u v).drvInit = s.drvInit := rfl
@[simp] theorem setUnit_syncBusyMask (s : State) (u : Nat) (v : UnitQ) : (s.setUnit u v).syncBusyMask = s.syncBusyMask := rfl
@[simp] theorem setUnit_seqUsedHWUnits (s : State) (u : Nat) (v : UnitQ) : (s.setUnit u v).seqUsedHWUnits = s.seqUsedHWUnits := rfl
@[simp] theorem setUnit_seqCache (s : State) (u : Nat) (v : UnitQ) : (s.setUnit u v).seqCache = s.seqCache := rfl
@[simp] theorem setUnit_chan (s : State) (u : Nat) (v : UnitQ) : (s.setUnit u v).chan = s.chan := rfl
@[simp] theorem setUnit_job (s : State) (u : Nat) (v : UnitQ) : (s.setUnit u v).job = s.job := rfl
@[simp] theorem setUnit_seq (s : State) (u : Nat) (v : UnitQ) : (s.setUnit u v).seq = s.seq := rfl
@[simp] theorem setUnit_unit (s : State) (u : Nat) (v : UnitQ) : (s.setUnit u v).unit = tset s.unit u v := rfl
@[simp] theorem setUnit_dev (s : State) (u : Nat) (v : UnitQ) : (s.setUnit u v).dev = s.dev := rfl
@[simp] theorem setUnit_dma (s : State) (u : Nat) (v : UnitQ) : (s.setUnit u v).dma = s.dma := rfl
@[simp] theorem setUnit_discardWord (s : State) (u : Nat) (v : UnitQ) : (s.setUnit u v).discardWord = s.discardWord := rfl
@[simp] theorem setUnit_lpspi (s : State) (u : Nat) (v : UnitQ) : (s.setUnit u v).lpspi = s.lpspi := rfl
@[simp] theorem setUnit_mem (s : State) (u : Nat) (v : UnitQ) : (s.setUnit u v).mem = s.mem := rfl
@[simp] theorem setUnit_trace (s : State) (u : Nat) (v : UnitQ) : (s.setUnit u v).trace = s.trace := rfl
@[simp] theorem setUnit_inputs (s : State) (u : Nat) (v : UnitQ) : (s.setUnit u v).inputs = s.inputs := rfl
@[simp] theorem setUnit_raised (s : State) (u : Nat) (v : UnitQ) : (s.setUnit u v).raised = s.raised := rfl
@[simp] theorem setUnit_freeCount (s : State) (u : Nat) (v : UnitQ) : (s.setUnit u v).freeCount = s.freeCount := rfl

/-! `setDev` -/

@[simp] theorem setDev_params (s : State) (u : Nat) (v : Dev) : (s.setDev u v).params = s.params := rfl
@[simp] theorem setDev_hostConfigs (s : State) (u : Nat) (v : Dev) : (s.setDev u v).hostConfigs = s.hostConfigs := rfl
@[simp] theorem setDev_cfg (s : State) (u : Nat) (v : Dev) : (s.setDev u v).cfg = s.cfg := rfl
@[simp] theorem setDev_drvInit (s : State) (u : Nat) (v : Dev) : (s.setDev u v).drvInit = s.drvInit := rfl
@[simp] theorem setDev_syncBusyMask (s : State) (u : Nat) (v : Dev) : (s.setDev u v).syncBusyMask = s.syncBusyMask := rfl
@[simp] theorem setDev_seqUsedHWUnits (s : State) (u : Nat) (v : Dev) : (s.setDev u v).seqUsedHWUnits = s.seqUsedHWUnits := rfl
@[simp] theorem setDev_seqCache (s : State) (u : Nat) (v : Dev) : (s.setDev u v).seqCache = s.seqCache := rfl
@[simp] theorem setDev_chan (s : State) (u : Nat) (v : Dev) : (s.setDev u v).chan = s.chan := rfl
@[simp] theorem setDev_job (s : State) (u : Nat) (v : Dev) : (s.setDev u v).job = s.job := rfl
@[simp] theorem setDev_seq (s : State) (u : Nat) (v : Dev) : (s.setDev u v).seq = s.seq := rfl
@[simp] theorem setDev_unit (s : State) (u : Nat) (v : Dev) : (s.setDev u v).unit = s.unit := rfl
@[simp] theorem setDev_dev (s : State) (u : Nat) (v : Dev) : (s.setDev u v).dev = tset s.dev u v := rfl
@[simp] theorem setDev_dma (s : State) (u : Nat) (v : Dev) : (s.setDev u v).dma = s.dma := rfl
@[simp] theorem setDev_discardWord (s : State) (u : Nat) (v : Dev) : (s.setDev u v).discardWord = s.discardWord := rfl
@[simp] theorem setDev_lpspi (s : State) (u : Nat) (v : Dev) : (s.setDev u v).lpspi = s.lpspi := rfl
@[simp] theorem setDev_mem (s : State) (u : Nat) (v : Dev) : (s.setDev u v).mem = s.mem := rfl
@[simp] theorem setDev_trace (s : State) (u : Nat) (v : Dev) : (s.setDev u v).trace = s.trace := rfl
@[simp] theorem setDev_inputs (s : State) (u : Nat) (v : Dev) : (s.setDev u v).inputs = s.inputs := rfl
@[simp] theorem setDev_raised (s : State) (u : Nat) (v : Dev) : (s.setDev u v).raised = s.raised := rfl
@[simp] theorem setDev_freeCount (s : State) (u : Nat) (v : Dev) : (s.setDev u v).freeCount = s.freeCount := rfl

/-! `setLpspi` -/

@[simp] theorem setLpspi_params (s : State) (u : Nat) (v : Lpspi) : (s.setLpspi u v).params = s.params := rfl
@[simp] theorem setLpspi_hostConfigs (s : State) (u : Nat) (v : Lpspi) : (s.setLpspi u v).hostConfigs = s.hostConfigs := rfl
@[simp] theorem setLpspi_cfg (s : State) (u : Nat) (v : Lpspi) : (s.setLpspi u v).cfg = s.cfg := rfl
@[simp] theorem setLpspi_drvInit (s : State) (u : Nat) (v : Lpspi) : (s.setLpspi u v).drvInit = s.drvInit := rfl
@[simp] theorem setLpspi_syncBusyMask (s : State) (u : Nat) (v : Lpspi) : (s.setLpspi u v).syncBusyMask = s.syncBusyMask := rfl
@[simp] theorem setLpspi_seqUsedHWUnits (s : State) (u : Nat) (v : Lpspi) : (s.setLpspi u v).seqUsedHWUnits = s.seqUsedHWUnits := rfl
@[simp] theorem setLpspi_seqCache (s : State) (u : Nat) (v : Lpspi) : (s.setLpspi u v).seqCache = s.seqCache := rfl
@[simp] theorem setLpspi_chan (s : State) (u : Nat) (v : Lpspi) : (s.setLpspi u v).chan = s.chan := rfl
@[simp] theorem setLpspi_job (s : State) (u : Nat) (v : Lpspi) : (s.setLpspi u v).job = s.job := rfl
@[simp] theorem setLpspi_seq (s : State) (u : Nat) (v : Lpspi) : (s.setLpspi u v).seq = s.seq := rfl
@[simp] theorem setLpspi_unit (s : State) (u : Nat) (v : Lpspi) : (s.setLpspi u v).unit = s.unit := rfl
@[simp] theorem setLpspi_dev (s : State) (u : Nat) (v : Lpspi) : (s.setLpspi u v).dev = s.dev := rfl
@[simp] theorem setLpspi_dma (s : State) (u : Nat) (v : Lpspi) : (s.setLpspi u v).dma = s.dma := rfl
@[simp] theorem setLpspi_discardWord (s : State) (u : Nat) (v : Lpspi) : (s.setLpspi u v).discardWord = s.discardWord := rfl
@[simp] theorem setLpspi_lpspi (s : State) (u : Nat) (v : Lpspi) : (s.setLpspi u v).lpspi = tset s.lpspi u v := rfl
@[simp] theorem setLpspi_mem (s : State) (u : Nat) (v : Lpspi) : (s.setLpspi u v).mem = s.mem := rfl
@[simp] theorem setLpspi_trace (s : State) (u : Nat) (v : Lpspi) : (s.setLpspi u v).trace = s.trace := rfl
@[simp] theorem setLpspi_inputs (s : State) (u : Nat) (v : Lpspi) : (s.setLpspi u v).inputs = s.inputs := rfl
@[simp] theorem setLpspi_raised (s : State) (u : Nat) (v : Lpspi) : (s.setLpspi u v).raised = s.raised := rfl
@[simp] theorem setLpspi_freeCount (s : State) (u : Nat) (v : Lpspi) : (s.setLpspi u v).freeCount = s.freeCount := rfl

/-! `setDma` -/

@[simp] theorem setDma_params (s : State) (ch : Nat) (v : DmaChan) : (s.setDma ch v).params = s.params := rfl
@[simp] theorem setDma_hostConfigs (s : State) (ch : Nat) (v : DmaChan) : (s.setDma ch v).hostConfigs = s.hostConfigs := rfl
@[simp] theorem setDma_cfg (s : State) (ch : Nat) (v : DmaChan) : (s.setDma ch v).cfg = s.cfg := rfl
@[simp] theorem setDma_drvInit (s : State) (ch : Nat) (v : DmaChan) : (s.setDma ch v).drvInit = s.drvInit := rfl
@[simp] theorem setDma_syncBusyMask (s : State) (ch : Nat) (v : DmaChan) : (s.setDma ch v).syncBusyMask = s.syncBusyMask := rfl
@[simp] theorem setDma_seqUsedHWUnits (s : State) (ch : Nat) (v : DmaChan) : (s.setDma ch v).seqUsedHWUnits = s.seqUsedHWUnits := rfl
@[simp] theorem setDma_seqCache (s : State) (ch : Nat) (v : DmaChan) : (s.setDma ch v).seqCache = s.seqCache := rfl
@[simp] theorem setDma_chan (s : State) (ch : Nat) (v : DmaChan) : (s.setDma ch v).chan = s.chan := rfl
@[simp] theorem setDma_job (s : State) (ch : Nat) (v : DmaChan) : (s.setDma ch v).job = s.job := rfl
@[simp] theorem setDma_seq (s : State) (ch : Nat) (v : DmaChan) : (s.setDma ch v).seq = s.seq := rfl
@[simp] theorem setDma_unit (s : State) (ch : Nat) (v : DmaChan) : (s.setDma ch v).unit = s.unit := rfl
@[simp] theorem setDma_dev (s : State) (ch : Nat) (v : DmaChan) : (s.setDma ch v).dev = s.dev := rfl
@[simp] theorem setDma_dma (s : State) (ch : Nat) (v : DmaChan) : (s.setDma ch v).dma = dmaStore s.dma ch v := rfl
@[simp] theorem setDma_discardWord (s : State) (ch : Nat) (v : DmaChan) : (s.setDma ch v).discardWord = s.discardWord := rfl
@[simp] theorem setDma_lpspi (s : State) (ch : Nat) (v : DmaChan) : (s.setDma ch v).lpspi = s.lpspi := rfl
@[simp] theorem setDma_mem (s : State) (ch : Nat) (v : DmaChan) : (s.setDma ch v).mem = s.mem := rfl
@[simp] theorem setDma_trace (s : State) (ch : Nat) (v : DmaChan) : (s.setDma ch v).trace = s.trace := rfl
@[simp] theorem setDma_inputs (s : State) (ch : Nat) (v : DmaChan) : (s.setDma ch v).inputs = s.inputs := rfl
@[simp] theorem setDma_raised (s : State) (ch : Nat) (v : DmaChan) : (s.setDma ch v).raised = s.raised := rfl
@[simp] theorem setDma_freeCount (s : State) (ch : Nat) (v : DmaChan) : (s.setDma ch v).freeCount = s.freeCount := rfl

/-! `setMem` -/

@[simp] theorem setMem_params (s : State) (m : Memory) : (s.setMem m).params = s.params := rfl
@[simp] theorem setMem_hostConfigs (s : State) (m : Memory) : (s.setMem m).hostConfigs = s.hostConfigs := rfl
@[simp] theorem setMem_cfg (s : State) (m : Memory) : (s.setMem m).cfg = s.cfg := rfl
@[simp] theorem setMem_drvInit (s : State) (m : Memory) : (s.setMem m).drvInit = s.drvInit := rfl
@[simp] theorem setMem_syncBusyMask (s : State) (m : Memory) : (s.setMem m).syncBusyMask = s.syncBusyMask := rfl
@[simp] theorem setMem_seqUsedHWUnits (s : State) (m : Memory) : (s.setMem m).seqUsedHWUnits = s.seqUsedHWUnits := rfl
@[simp] theorem setMem_seqCache (s : State) (m : Memory) : (s.setMem m).seqCache = s.seqCache := rfl
@[simp] theorem setMem_chan (s : State) (m : Memory) : (s.setMem m).chan = s.chan := rfl
@[simp] theorem setMem_job (s : State) (m : Memory) : (s.setMem m).job = s.job := rfl
@[simp] theorem setMem_seq (s : State) (m : Memory) : (s.setMem m).seq = s.seq := rfl
@[simp] theorem setMem_unit (s : State) (m : Memory) : (s.setMem m).unit = s.unit := rfl
@[simp] theorem setMem_dev (s : State) (m : Memory) : (s.setMem m).dev = s.dev := rfl
@[simp] theorem setMem_dma (s : State) (m : Memory) : (s.setMem m).dma = s.dma := rfl
@[simp] theorem setMem_discardWord (s : State) (m : Memory) : (s.setMem m).discardWord = s.discardWord := rfl
@[simp] theorem setMem_lpspi (s : State) (m : Memory) : (s.setMem m).lpspi = s.lpspi := rfl
@[simp] theorem setMem_mem (s : State) (m : Memory) : (s.setMem m).mem = m := rfl
@[simp] theorem setMem_trace (s : State) (m : Memory) : (s.setMem m).trace = s.trace := rfl
@[simp] theorem setMem_inputs (s : State) (m : Memory) : (s.setMem m).inputs = s.inputs := rfl
@[simp] theorem setMem_raised (s : State) (m : Memory) : (s.setMem m).raised = s.raised := rfl
@[simp] theorem setMem_freeCount (s : State) (m : Memory) : (s.setMem m).freeCount = s.freeCount := rfl

/-! `emit` -/

@[simp] theorem emit_params (s : State) (e : Entry) : (s.emit e).params = s.params := rfl
@[simp] theorem emit_hostConfigs (s : State) (e : Entry) : (s.emit e).hostConfigs = s.hostConfigs := rfl
@[simp] theorem emit_cfg (s : State) (e : Entry) : (s.emit e).cfg = s.cfg := rfl
@[simp] theorem emit_drvInit (s : State) (e : Entry) : (s.emit e).drvInit = s.drvInit := rfl
@[simp] theorem emit_syncBusyMask (s : State) (e : Entry) : (s.emit e).syncBusyMask = s.syncBusyMask := rfl
@[simp] theorem emit_seqUsedHWUnits (s : State) (e : Entry) : (s.emit e).seqUsedHWUnits = s.seqUsedHWUnits := rfl
@[simp] theorem emit_seqCache (s : State) (e : Entry) : (s.emit e).seqCache = s.seqCache := rfl
@[simp] theorem emit_chan (s : State) (e : Entry) : (s.emit e).chan = s.chan := rfl
@[simp] theorem emit_job (s : State) (e : Entry) : (s.emit e).job = s.job := rfl
@[simp] theorem emit_seq (s : State) (e : Entry) : (s.emit e).seq = s.seq := rfl
@[simp] theorem emit_unit (s : State) (e : Entry) : (s.emit e).unit = s.unit := rfl
@[simp] theorem emit_dev (s : State) (e : Entry) : (s.emit e).dev = s.dev := rfl
@[simp] theorem emit_dma (s : State) (e : Entry) : (s.emit e).dma = s.dma := rfl
@[simp] theorem emit_discardWord (s : State) (e : Entry) : (s.emit e).discardWord = s.discardWord := rfl
@[simp] theorem emit_lpspi (s : State) (e : Entry) : (s.emit e).lpspi = s.lpspi := rfl
@[simp] theorem emit_mem (s : State) (e : Entry) : (s.emit e).mem = s.mem := rfl
@[simp] theorem emit_trace (s : State) (e : Entry) : (s.emit e).trace = s.trace ++ [e] := rfl
@[simp] theorem emit_inputs (s : State) (e : Entry) : (s.emit e).inputs = s.inputs := rfl
@[simp] theorem emit_raised (s : State) (e : Entry) : (s.emit e).raised = s.raised := rfl
@[simp] theorem emit_freeCount (s : State) (e : Entry) : (s.emit e).freeCount = s.freeCount := rfl

/-! `pokeReg` -/

@[simp] theorem pokeReg_params (s : State) (u : Nat) (w : RegWrite) : (s.pokeReg u w).params = s.params := rfl
@[simp] theorem pokeReg_hostConfigs (s : State) (u : Nat) (w : RegWrite) : (s.pokeReg u w).hostConfigs = s.hostConfigs := rfl
@[simp] theorem pokeReg_cfg (s : State) (u : Nat) (w : RegWrite) : (s.pokeReg u w).cfg = s.cfg := rfl
@[simp] theorem pokeReg_drvInit (s : State) (u : Nat) (w : RegWrite) : (s.pokeReg u w).drvInit = s.drvInit := rfl
@[simp] theorem pokeReg_syncBusyMask (s : State) (u : Nat) (w : RegWrite) : (s.pokeReg u w).syncBusyMask = s.syncBusyMask := rfl
@[simp] theorem pokeReg_seqUsedHWUnits (s : State) (u : Nat) (w : RegWrite) : (s.pokeReg u w).seqUsedHWUnits = s.seqUsedHWUnits := rfl
@[simp] theorem pokeReg_seqCache (s : State) (u : Nat) (w : RegWrite) : (s.pokeReg u w).seqCache = s.seqCache := rfl
@[simp] theorem pokeReg_chan (s : State) (u : Nat) (w : RegWrite) : (s.pokeReg u w).chan = s.chan := rfl
@[simp] theorem pokeReg_job (s : State) (u : Nat) (w : RegWrite) : (s.pokeReg u w).job = s.job := rfl
@[simp] theorem pokeReg_seq (s : State) (u : Nat) (w : RegWrite) : (s.pokeReg u w).seq = s.seq := rfl
@[simp] theorem pokeReg_unit (s : State) (u : Nat) (w : RegWrite) : (s.pokeReg u w).unit = s.unit := rfl
@[simp] theorem pokeReg_dev (s : State) (u : Nat) (w : RegWrite) : (s.pokeReg u w).dev = s.dev := rfl
@[simp] theorem pokeReg_dma (s : State) (u : Nat) (w : RegWrite) : (s.pokeReg u w).dma = s.dma := rfl
@[simp] theorem pokeReg_discardWord (s : State) (u : Nat) (w : RegWrite) : (s.pokeReg u w).discardWord = s.discardWord := rfl
@[simp] theorem pokeReg_mem (s : State) (u : Nat) (w : RegWrite) : (s.pokeReg u w).mem = s.mem := rfl
@[simp] theorem pokeReg_trace (s : State) (u : Nat) (w : RegWrite) : (s.pokeReg u w).trace = s.trace := rfl
@[simp] theorem pokeReg_inputs (s : State) (u : Nat) (w : RegWrite) : (s.pokeReg u w).inputs = s.inputs := rfl
@[simp] theorem pokeReg_raised (s : State) (u : Nat) (w : RegWrite) : (s.pokeReg u w).raised = s.raised := rfl
@[simp] theorem pokeReg_lpspi (s : State) (u : Nat) (w : RegWrite) : (s.pokeReg u w).lpspi =
    tset s.lpspi u (Lpspi.write s.params.fifoSize s.freeCount (s.lpspiAt u) w) := rfl

/-! `soilUnit` -/

@[simp] theorem soilUnit_params (s : State) (u : Nat) : (s.soilUnit u).params = s.params := rfl
@[simp] theorem soilUnit_hostConfigs (s : State) (u : Nat) : (s.soilUnit u).hostConfigs = s.hostConfigs := rfl
@[simp] theorem soilUnit_cfg (s : State) (u : Nat) : (s.soilUnit u).cfg = s.cfg := rfl
@[simp] theorem soilUnit_drvInit (s : State) (u : Nat) : (s.soilUnit u).drvInit = s.drvInit := rfl
@[simp] theorem soilUnit_syncBusyMask (s : State) (u : Nat) : (s.soilUnit u).syncBusyMask = s.syncBusyMask := rfl
@[simp] theorem soilUnit_seqUsedHWUnits (s : State) (u : Nat) : (s.soilUnit u).seqUsedHWUnits = s.seqUsedHWUnits := rfl
@[simp] theorem soilUnit_seqCache (s : State) (u : Nat) : (s.soilUnit u).seqCache = s.seqCache := rfl
@[simp] theorem soilUnit_chan (s : State) (u : Nat) : (s.soilUnit u).chan = s.chan := rfl
@[simp] theorem soilUnit_job (s : State) (u : Nat) : (s.soilUnit u).job = s.job := rfl
@[simp] theorem soilUnit_seq (s : State) (u : Nat) : (s.soilUnit u).seq = s.seq := rfl
@[simp] theorem soilUnit_unit (s : State) (u : Nat) : (s.soilUnit u).unit = s.unit := rfl
@[simp] theorem soilUnit_dev (s : State) (u : Nat) : (s.soilUnit u).dev = s.dev := rfl
@[simp] theorem soilUnit_dma (s : State) (u : Nat) : (s.soilUnit u).dma = s.dma := rfl
@[simp] theorem soilUnit_discardWord (s : State) (u : Nat) : (s.soilUnit u).discardWord = s.discardWord := rfl
@[simp] theorem soilUnit_mem (s : State) (u : Nat) : (s.soilUnit u).mem = s.mem := rfl
@[simp] theorem soilUnit_trace (s : State) (u : Nat) : (s.soilUnit u).trace = s.trace := rfl
@[simp] theorem soilUnit_inputs (s : State) (u : Nat) : (s.soilUnit u).inputs = s.inputs := rfl
@[simp] theorem soilUnit_raised (s : State) (u : Nat) : (s.soilUnit u).raised = s.raised := rfl
@[simp] theorem soilUnit_lpspi (s : State) (u : Nat) : (s.soilUnit u).lpspi =
    tset s.lpspi u ((s.lpspiAt u).soil s.params.fifoSize (Config.timeoutResidue s.freeCount)) := rfl
@[simp] theorem soilUnit_freeCount (s : State) (u : Nat) : (s.soilUnit u).freeCount = s.freeCount + 1 := rfl

/-! `setJobResult` -/

@[simp] theorem setJobResult_params (s : State) (j : Nat) (r : JobResult) : (s.setJobResult j r).params = s.params := rfl
@[simp] theorem setJobResult_hostConfigs (s : State) (j : Nat) (r : JobResult) : (s.setJobResult j r).hostConfigs = s.hostConfigs := rfl
@[simp] theorem setJobResult_cfg (s : State) (j : Nat) (r : JobResult) : (s.setJobResult j r).cfg = s.cfg := rfl
@[simp] theorem setJobResult_drvInit (s : State) (j : Nat) (r : JobResult) : (s.setJobResult j r).drvInit = s.drvInit := rfl
@[simp] theorem setJobResult_syncBusyMask (s : State) (j : Nat) (r : JobResult) : (s.setJobResult j r).syncBusyMask = s.syncBusyMask := rfl
@[simp] theorem setJobResult_seqUsedHWUnits (s : State) (j : Nat) (r : JobResult) : (s.setJobResult j r).seqUsedHWUnits = s.seqUsedHWUnits := rfl
@[simp] theorem setJobResult_seqCache (s : State) (j : Nat) (r : JobResult) : (s.setJobResult j r).seqCache = s.seqCache := rfl
@[simp] theorem setJobResult_chan (s : State) (j : Nat) (r : JobResult) : (s.setJobResult j r).chan = s.chan := rfl
@[simp] theorem setJobResult_seq (s : State) (j : Nat) (r : JobResult) : (s.setJobResult j r).seq = s.seq := rfl
@[simp] theorem setJobResult_unit (s : State) (j : Nat) (r : JobResult) : (s.setJobResult j r).unit = s.unit := rfl
@[simp] theorem setJobResult_dev (s : State) (j : Nat) (r : JobResult) : (s.setJobResult j r).dev = s.dev := rfl
@[simp] theorem setJobResult_dma (s : State) (j : Nat) (r : JobResult) : (s.setJobResult j r).dma = s.dma := rfl
@[simp] theorem setJobResult_discardWord (s : State) (j : Nat) (r : JobResult) : (s.setJobResult j r).discardWord = s.discardWord := rfl
@[simp] theorem setJobResult_lpspi (s : State) (j : Nat) (r : JobResult) : (s.setJobResult j r).lpspi = s.lpspi := rfl
@[simp] theorem setJobResult_mem (s : State) (j : Nat) (r : JobResult) : (s.setJobResult j r).mem = s.mem := rfl
@[simp] theorem setJobResult_trace (s : State) (j : Nat) (r : JobResult) : (s.setJobResult j r).trace = s.trace := rfl
@[simp] theorem setJobResult_inputs (s : State) (j : Nat) (r : JobResult) : (s.setJobResult j r).inputs = s.inputs := rfl
@[simp] theorem setJobResult_raised (s : State) (j : Nat) (r : JobResult) : (s.setJobResult j r).raised = s.raised := rfl
@[simp] theorem setJobResult_freeCount (s : State) (j : Nat) (r : JobResult) : (s.setJobResult j r).freeCount = s.freeCount := rfl

/-! `setJobOwner` -/

@[simp] theorem setJobOwner_params (s : State) (j : Nat) (o : Option Nat) : (s.setJobOwner j o).params = s.params := rfl
@[simp] theorem setJobOwner_hostConfigs (s : State) (j : Nat) (o : Option Nat) : (s.setJobOwner j o).hostConfigs = s.hostConfigs := rfl
@[simp] theorem setJobOwner_cfg (s : State) (j : Nat) (o : Option Nat) : (s.setJobOwner j o).cfg = s.cfg := rfl
@[simp] theorem setJobOwner_drvInit (s : State) (j : Nat) (o : Option Nat) : (s.setJobOwner j o).drvInit = s.drvInit := rfl
@[simp] theorem setJobOwner_syncBusyMask (s : State) (j : Nat) (o : Option Nat) : (s.setJobOwner j o).syncBusyMask = s.syncBusyMask := rfl
@[simp] theorem setJobOwner_seqUsedHWUnits (s : State) (j : Nat) (o : Option Nat) : (s.setJobOwner j o).seqUsedHWUnits = s.seqUsedHWUnits := rfl
@[simp] theorem setJobOwner_seqCache (s : State) (j : Nat) (o : Option Nat) : (s.setJobOwner j o).seqCache = s.seqCache := rfl
@[simp] theorem setJobOwner_chan (s : State) (j : Nat) (o : Option Nat) : (s.setJobOwner j o).chan = s.chan := rfl
@[simp] theorem setJobOwner_seq (s : State) (j : Nat) (o : Option Nat) : (s.setJobOwner j o).seq = s.seq := rfl
@[simp] theorem setJobOwner_unit (s : State) (j : Nat) (o : Option Nat) : (s.setJobOwner j o).unit = s.unit := rfl
@[simp] theorem setJobOwner_dev (s : State) (j : Nat) (o : Option Nat) : (s.setJobOwner j o).dev = s.dev := rfl
@[simp] theorem setJobOwner_dma (s : State) (j : Nat) (o : Option Nat) : (s.setJobOwner j o).dma = s.dma := rfl
@[simp] theorem setJobOwner_discardWord (s : State) (j : Nat) (o : Option Nat) : (s.setJobOwner j o).discardWord = s.discardWord := rfl
@[simp] theorem setJobOwner_lpspi (s : State) (j : Nat) (o : Option Nat) : (s.setJobOwner j o).lpspi = s.lpspi := rfl
@[simp] theorem setJobOwner_mem (s : State) (j : Nat) (o : Option Nat) : (s.setJobOwner j o).mem = s.mem := rfl
@[simp] theorem setJobOwner_trace (s : State) (j : Nat) (o : Option Nat) : (s.setJobOwner j o).trace = s.trace := rfl
@[simp] theorem setJobOwner_inputs (s : State) (j : Nat) (o : Option Nat) : (s.setJobOwner j o).inputs = s.inputs := rfl
@[simp] theorem setJobOwner_raised (s : State) (j : Nat) (o : Option Nat) : (s.setJobOwner j o).raised = s.raised := rfl
@[simp] theorem setJobOwner_freeCount (s : State) (j : Nat) (o : Option Nat) : (s.setJobOwner j o).freeCount = s.freeCount := rfl

/-! `setJobNext` -/

@[simp] theorem setJobNext_params (s : State) (j : Nat) (o : Option Nat) : (s.setJobNext j o).params = s.params := rfl
@[simp] theorem setJobNext_hostConfigs (s : State) (j : Nat) (o : Option Nat) : (s.setJobNext j o).hostConfigs = s.hostConfigs := rfl
@[simp] theorem setJobNext_cfg (s : State) (j : Nat) (o : Option Nat) : (s.setJobNext j o).cfg = s.cfg := rfl
@[simp] theorem setJobNext_drvInit (s : State) (j : Nat) (o : Option Nat) : (s.setJobNext j o).drvInit = s.drvInit := rfl
@[simp] theorem setJobNext_syncBusyMask (s : State) (j : Nat) (o : Option Nat) : (s.setJobNext j o).syncBusyMask = s.syncBusyMask := rfl
@[simp] theorem setJobNext_seqUsedHWUnits (s : State) (j : Nat) (o : Option Nat) : (s.setJobNext j o).seqUsedHWUnits = s.seqUsedHWUnits := rfl
@[simp] theorem setJobNext_seqCache (s : State) (j : Nat) (o : Option Nat) : (s.setJobNext j o).seqCache = s.seqCache := rfl
@[simp] theorem setJobNext_chan (s : State) (j : Nat) (o : Option Nat) : (s.setJobNext j o).chan = s.chan := rfl
@[simp] theorem setJobNext_seq (s : State) (j : Nat) (o : Option Nat) : (s.setJobNext j o).seq = s.seq := rfl
@[simp] theorem setJobNext_unit (s : State) (j : Nat) (o : Option Nat) : (s.setJobNext j o).unit = s.unit := rfl
@[simp] theorem setJobNext_dev (s : State) (j : Nat) (o : Option Nat) : (s.setJobNext j o).dev = s.dev := rfl
@[simp] theorem setJobNext_dma (s : State) (j : Nat) (o : Option Nat) : (s.setJobNext j o).dma = s.dma := rfl
@[simp] theorem setJobNext_discardWord (s : State) (j : Nat) (o : Option Nat) : (s.setJobNext j o).discardWord = s.discardWord := rfl
@[simp] theorem setJobNext_lpspi (s : State) (j : Nat) (o : Option Nat) : (s.setJobNext j o).lpspi = s.lpspi := rfl
@[simp] theorem setJobNext_mem (s : State) (j : Nat) (o : Option Nat) : (s.setJobNext j o).mem = s.mem := rfl
@[simp] theorem setJobNext_trace (s : State) (j : Nat) (o : Option Nat) : (s.setJobNext j o).trace = s.trace := rfl
@[simp] theorem setJobNext_inputs (s : State) (j : Nat) (o : Option Nat) : (s.setJobNext j o).inputs = s.inputs := rfl
@[simp] theorem setJobNext_raised (s : State) (j : Nat) (o : Option Nat) : (s.setJobNext j o).raised = s.raised := rfl
@[simp] theorem setJobNext_freeCount (s : State) (j : Nat) (o : Option Nat) : (s.setJobNext j o).freeCount = s.freeCount := rfl

/-! `setSeqResult` -/

@[simp] theorem setSeqResult_params (s : State) (q : Nat) (r : SeqResult) : (s.setSeqResult q r).params = s.params := rfl
@[simp] theorem setSeqResult_hostConfigs (s : State) (q : Nat) (r : SeqResult) : (s.setSeqResult q r).hostConfigs = s.hostConfigs := rfl
@[simp] theorem setSeqResult_cfg (s : State) (q : Nat) (r : SeqResult) : (s.setSeqResult q r).cfg = s.cfg := rfl
@[simp] theorem setSeqResult_drvInit (s : State) (q : Nat) (r : SeqResult) : (s.setSeqResult q r).drvInit = s.drvInit := rfl
@[simp] theorem setSeqResult_syncBusyMask (s : State) (q : Nat) (r : SeqResult) : (s.setSeqResult q r).syncBusyMask = s.syncBusyMask := rfl
@[simp] theorem setSeqResult_seqUsedHWUnits (s : State) (q : Nat) (r : SeqResult) : (s.setSeqResult q r).seqUsedHWUnits = s.seqUsedHWUnits := rfl
@[simp] theorem setSeqResult_seqCache (s : State) (q : Nat) (r : SeqResult) : (s.setSeqResult q r).seqCache = s.seqCache := rfl
@[simp] theorem setSeqResult_chan (s : State) (q : Nat) (r : SeqResult) : (s.setSeqResult q r).chan = s.chan := rfl
@[simp] theorem setSeqResult_job (s : State) (q : Nat) (r : SeqResult) : (s.setSeqResult q r).job = s.job := rfl
@[simp] theorem setSeqResult_unit (s : State) (q : Nat) (r : SeqResult) : (s.setSeqResult q r).unit = s.unit := rfl
@[simp] theorem setSeqResult_dev (s : State) (q : Nat) (r : SeqResult) : (s.setSeqResult q r).dev = s.dev := rfl
@[simp] theorem setSeqResult_dma (s : State) (q : Nat) (r : SeqResult) : (s.setSeqResult q r).dma = s.dma := rfl
@[simp] theorem setSeqResult_discardWord (s : State) (q : Nat) (r : SeqResult) : (s.setSeqResult q r).discardWord = s.discardWord := rfl
@[simp] theorem setSeqResult_lpspi (s : State) (q : Nat) (r : SeqResult) : (s.setSeqResult q r).lpspi = s.lpspi := rfl
@[simp] theorem setSeqResult_mem (s : State) (q : Nat) (r : SeqResult) : (s.setSeqResult q r).mem = s.mem := rfl
@[simp] theorem setSeqResult_trace (s : State) (q : Nat) (r : SeqResult) : (s.setSeqResult q r).trace = s.trace := rfl
@[simp] theorem setSeqResult_inputs (s : State) (q : Nat) (r : SeqResult) : (s.setSeqResult q r).inputs = s.inputs := rfl
@[simp] theorem setSeqResult_raised (s : State) (q : Nat) (r : SeqResult) : (s.setSeqResult q r).raised = s.raised := rfl
@[simp] theorem setSeqResult_freeCount (s : State) (q : Nat) (r : SeqResult) : (s.setSeqResult q r).freeCount = s.freeCount := rfl

/-! `setUnitStatus` -/

@[simp] theorem setUnitStatus_params (s : State) (u : Nat) (st : Status) : (s.setUnitStatus u st).params = s.params := rfl
@[simp] theorem setUnitStatus_hostConfigs (s : State) (u : Nat) (st : Status) : (s.setUnitStatus u st).hostConfigs = s.hostConfigs := rfl
@[simp] theorem setUnitStatus_cfg (s : State) (u : Nat) (st : Status) : (s.setUnitStatus u st).cfg = s.cfg := rfl
@[simp] theorem setUnitStatus_drvInit (s : State) (u : Nat) (st : Status) : (s.setUnitStatus u st).drvInit = s.drvInit := rfl
@[simp] theorem setUnitStatus_syncBusyMask (s : State) (u : Nat) (st : Status) : (s.setUnitStatus u st).syncBusyMask = s.syncBusyMask := rfl
@[simp] theorem setUnitStatus_seqUsedHWUnits (s : State) (u : Nat) (st : Status) : (s.setUnitStatus u st).seqUsedHWUnits = s.seqUsedHWUnits := rfl
@[simp] theorem setUnitStatus_seqCache (s : State) (u : Nat) (st : Status) : (s.setUnitStatus u st).seqCache = s.seqCache := rfl
@[simp] theorem setUnitStatus_chan (s : State) (u : Nat) (st : Status) : (s.setUnitStatus u st).chan = s.chan := rfl
@[simp] theorem setUnitStatus_job (s : State) (u : Nat) (st : Status) : (s.setUnitStatus u st).job = s.job := rfl
@[simp] theorem setUnitStatus_seq (s : State) (u : Nat) (st : Status) : (s.setUnitStatus u st).seq = s.seq := rfl
@[simp] theorem setUnitStatus_dev (s : State) (u : Nat) (st : Status) : (s.setUnitStatus u st).dev = s.dev := rfl
@[simp] theorem setUnitStatus_dma (s : State) (u : Nat) (st : Status) : (s.setUnitStatus u st).dma = s.dma := rfl
@[simp] theorem setUnitStatus_discardWord (s : State) (u : Nat) (st : Status) : (s.setUnitStatus u st).discardWord = s.discardWord := rfl
@[simp] theorem setUnitStatus_lpspi (s : State) (u : Nat) (st : Status) : (s.setUnitStatus u st).lpspi = s.lpspi := rfl
@[simp] theorem setUnitStatus_mem (s : State) (u : Nat) (st : Status) : (s.setUnitStatus u st).mem = s.mem := rfl
@[simp] theorem setUnitStatus_trace (s : State) (u : Nat) (st : Status) : (s.setUnitStatus u st).trace = s.trace := rfl
@[simp] theorem setUnitStatus_inputs (s : State) (u : Nat) (st : Status) : (s.setUnitStatus u st).inputs = s.inputs := rfl
@[simp] theorem setUnitStatus_raised (s : State) (u : Nat) (st : Status) : (s.setUnitStatus u st).raised = s.raised := rfl
@[simp] theorem setUnitStatus_freeCount (s : State) (u : Nat) (st : Status) : (s.setUnitStatus u st).freeCount = s.freeCount := rfl

/-! `respond` -/

@[simp] theorem respond_params (s : State) (v : Word) : (respond v s).params = s.params := rfl
@[simp] theorem respond_hostConfigs (s : State) (v : Word) : (respond v s).hostConfigs = s.hostConfigs := rfl
@[simp] theorem respond_cfg (s : State) (v : Word) : (respond v s).cfg = s.cfg := rfl
@[simp] theorem respond_drvInit (s : State) (v : Word) : (respond v s).drvInit = s.drvInit := rfl
@[simp] theorem respond_syncBusyMask (s : State) (v : Word) : (respond v s).syncBusyMask = s.syncBusyMask := rfl
@[simp] theorem respond_seqUsedHWUnits (s : State) (v : Word) : (respond v s).seqUsedHWUnits = s.seqUsedHWUnits := rfl
@[simp] theorem respond_seqCache (s : State) (v : Word) : (respond v s).seqCache = s.seqCache := rfl
@[simp] theorem respond_chan (s : State) (v : Word) : (respond v s).chan = s.chan := rfl
@[simp] theorem respond_job (s : State) (v : Word) : (respond v s).job = s.job := rfl
@[simp] theorem respond_seq (s : State) (v : Word) : (respond v s).seq = s.seq := rfl
@[simp] theorem respond_unit (s : State) (v : Word) : (respond v s).unit = s.unit := rfl
@[simp] theorem respond_dev (s : State) (v : Word) : (respond v s).dev = s.dev := rfl
@[simp] theorem respond_dma (s : State) (v : Word) : (respond v s).dma = s.dma := rfl
@[simp] theorem respond_discardWord (s : State) (v : Word) : (respond v s).discardWord = s.discardWord := rfl
@[simp] theorem respond_lpspi (s : State) (v : Word) : (respond v s).lpspi = s.lpspi := rfl
@[simp] theorem respond_mem (s : State) (v : Word) : (respond v s).mem = s.mem := rfl
@[simp] theorem respond_inputs (s : State) (v : Word) : (respond v s).inputs = s.inputs := rfl
@[simp] theorem respond_raised (s : State) (v : Word) : (respond v s).raised = s.raised := rfl
@[simp] theorem respond_freeCount (s : State) (v : Word) : (respond v s).freeCount = s.freeCount := rfl

@[simp] theorem respond_trace (s : State) (v : Word) : (respond v s).trace = s.trace ++ [.rsp v] := rfl

/-! `raise` -/

@[simp] theorem raise_params (s : State) (op : Byte) (e : ErrName) : (raise op e s).params = s.params := by unfold raise; split <;> rfl
@[simp] theorem raise_hostConfigs (s : State) (op : Byte) (e : ErrName) : (raise op e s).hostConfigs = s.hostConfigs := by unfold raise; split <;> rfl
@[simp] theorem raise_cfg (s : State) (op : Byte) (e : ErrName) : (raise op e s).cfg = s.cfg := by unfold raise; split <;> rfl
@[simp] theorem raise_drvInit (s : State) (op : Byte) (e : ErrName) : (raise op e s).drvInit = s.drvInit := by unfold raise; split <;> rfl
@[simp] theorem raise_syncBusyMask (s : State) (op : Byte) (e : ErrName) : (raise op e s).syncBusyMask = s.syncBusyMask := by unfold raise; split <;> rfl
@[simp] theorem raise_seqUsedHWUnits (s : State) (op : Byte) (e : ErrName) : (raise op e s).seqUsedHWUnits = s.seqUsedHWUnits := by unfold raise; split <;> rfl
@[simp] theorem raise_seqCache (s : State) (op : Byte) (e : ErrName) : (raise op e s).seqCache = s.seqCache := by unfold raise; split <;> rfl
@[simp] theorem raise_chan (s : State) (op : Byte) (e : ErrName) : (raise op e s).chan = s.chan := by unfold raise; split <;> rfl
@[simp] theorem raise_job (s : State) (op : Byte) (e : ErrName) : (raise op e s).job = s.job := by unfold raise; split <;> rfl
@[simp] theorem raise_seq (s : State) (op : Byte) (e : ErrName) : (raise op e s).seq = s.seq := by unfold raise; split <;> rfl
@[simp] theorem raise_unit (s : State) (op : Byte) (e : ErrName) : (raise op e s).unit = s.unit := by unfold raise; split <;> rfl
@[simp] theorem raise_dev (s : State) (op : Byte) (e : ErrName) : (raise op e s).dev = s.dev := by unfold raise; split <;> rfl
@[simp] theorem raise_dma (s : State) (op : Byte) (e : ErrName) : (raise op e s).dma = s.dma := by unfold raise; split <;> rfl
@[simp] theorem raise_discardWord (s : State) (op : Byte) (e : ErrName) : (raise op e s).discardWord = s.discardWord := by unfold raise; split <;> rfl
@[simp] theorem raise_lpspi (s : State) (op : Byte) (e : ErrName) : (raise op e s).lpspi = s.lpspi := by unfold raise; split <;> rfl
@[simp] theorem raise_mem (s : State) (op : Byte) (e : ErrName) : (raise op e s).mem = s.mem := by unfold raise; split <;> rfl
@[simp] theorem raise_inputs (s : State) (op : Byte) (e : ErrName) : (raise op e s).inputs = s.inputs := by unfold raise; split <;> rfl
@[simp] theorem raise_raised (s : State) (op : Byte) (e : ErrName) : (raise op e s).raised = s.raised := by unfold raise; split <;> rfl
@[simp] theorem raise_freeCount (s : State) (op : Byte) (e : ErrName) : (raise op e s).freeCount = s.freeCount := by unfold raise; split <;> rfl

/-! `notify` -/

@[simp] theorem notify_params (s : State) (on : Bool) (k : NotifKind) (i : Nat) : (notify on k i s).params = s.params := by unfold notify; split <;> rfl
@[simp] theorem notify_hostConfigs (s : State) (on : Bool) (k : NotifKind) (i : Nat) : (notify on k i s).hostConfigs = s.hostConfigs := by unfold notify; split <;> rfl
@[simp] theorem notify_cfg (s : State) (on : Bool) (k : NotifKind) (i : Nat) : (notify on k i s).cfg = s.cfg := by unfold notify; split <;> rfl
@[simp] theorem notify_drvInit (s : State) (on : Bool) (k : NotifKind) (i : Nat) : (notify on k i s).drvInit = s.drvInit := by unfold notify; split <;> rfl
@[simp] theorem notify_syncBusyMask (s : State) (on : Bool) (k : NotifKind) (i : Nat) : (notify on k i s).syncBusyMask = s.syncBusyMask := by unfold notify; split <;> rfl
@[simp] theorem notify_seqUsedHWUnits (s : State) (on : Bool) (k : NotifKind) (i : Nat) : (notify on k i s).seqUsedHWUnits = s.seqUsedHWUnits := by unfold notify; split <;> rfl
@[simp] theorem notify_seqCache (s : State) (on : Bool) (k : NotifKind) (i : Nat) : (notify on k i s).seqCache = s.seqCache := by unfold notify; split <;> rfl
@[simp] theorem notify_chan (s : State) (on : Bool) (k : NotifKind) (i : Nat) : (notify on k i s).chan = s.chan := by unfold notify; split <;> rfl
@[simp] theorem notify_job (s : State) (on : Bool) (k : NotifKind) (i : Nat) : (notify on k i s).job = s.job := by unfold notify; split <;> rfl
@[simp] theorem notify_seq (s : State) (on : Bool) (k : NotifKind) (i : Nat) : (notify on k i s).seq = s.seq := by unfold notify; split <;> rfl
@[simp] theorem notify_unit (s : State) (on : Bool) (k : NotifKind) (i : Nat) : (notify on k i s).unit = s.unit := by unfold notify; split <;> rfl
@[simp] theorem notify_dev (s : State) (on : Bool) (k : NotifKind) (i : Nat) : (notify on k i s).dev = s.dev := by unfold notify; split <;> rfl
@[simp] theorem notify_dma (s : State) (on : Bool) (k : NotifKind) (i : Nat) : (notify on k i s).dma = s.dma := by unfold notify; split <;> rfl
@[simp] theorem notify_discardWord (s : State) (on : Bool) (k : NotifKind) (i : Nat) : (notify on k i s).discardWord = s.discardWord := by unfold notify; split <;> rfl
@[simp] theorem notify_lpspi (s : State) (on : Bool) (k : NotifKind) (i : Nat) : (notify on k i s).lpspi = s.lpspi := by unfold notify; split <;> rfl
@[simp] theorem notify_mem (s : State) (on : Bool) (k : NotifKind) (i : Nat) : (notify on k i s).mem = s.mem := by unfold notify; split <;> rfl
@[simp] theorem notify_inputs (s : State) (on : Bool) (k : NotifKind) (i : Nat) : (notify on k i s).inputs = s.inputs := by unfold notify; split <;> rfl
@[simp] theorem notify_raised (s : State) (on : Bool) (k : NotifKind) (i : Nat) : (notify on k i s).raised = s.raised := by unfold notify; split <;> rfl
@[simp] theorem notify_freeCount (s : State) (on : Bool) (k : NotifKind) (i : Nat) : (notify on k i s).freeCount = s.freeCount := by unfold notify; split <;> rfl

/-! `reportDemTimeout` -/

@[simp] theorem reportDemTimeout_params (s : State) : (reportDemTimeout s).params = s.params := by unfold reportDemTimeout; split <;> rfl
@[simp] theorem reportDemTimeout_hostConfigs (s : State) : (reportDemTimeout s).hostConfigs = s.hostConfigs := by unfold reportDemTimeout; split <;> rfl
@[simp] theorem reportDemTimeout_cfg (s : State) : (reportDemTimeout s).cfg = s.cfg := by unfold reportDemTimeout; split <;> rfl
@[simp] theorem reportDemTimeout_drvInit (s : State) : (reportDemTimeout s).drvInit = s.drvInit := by unfold reportDemTimeout; split <;> rfl
@[simp] theorem reportDemTimeout_syncBusyMask (s : State) : (reportDemTimeout s).syncBusyMask = s.syncBusyMask := by unfold reportDemTimeout; split <;> rfl
@[simp] theorem reportDemTimeout_seqUsedHWUnits (s : State) : (reportDemTimeout s).seqUsedHWUnits = s.seqUsedHWUnits := by unfold reportDemTimeout; split <;> rfl
@[simp] theorem reportDemTimeout_seqCache (s : State) : (reportDemTimeout s).seqCache = s.seqCache := by unfold reportDemTimeout; split <;> rfl
@[simp] theorem reportDemTimeout_chan (s : State) : (reportDemTimeout s).chan = s.chan := by unfold reportDemTimeout; split <;> rfl
@[simp] theorem reportDemTimeout_job (s : State) : (reportDemTimeout s).job = s.job := by unfold reportDemTimeout; split <;> rfl
@[simp] theorem reportDemTimeout_seq (s : State) : (reportDemTimeout s).seq = s.seq := by unfold reportDemTimeout; split <;> rfl
@[simp] theorem reportDemTimeout_unit (s : State) : (reportDemTimeout s).unit = s.unit := by unfold reportDemTimeout; split <;> rfl
@[simp] theorem reportDemTimeout_dev (s : State) : (reportDemTimeout s).dev = s.dev := by unfold reportDemTimeout; split <;> rfl
@[simp] theorem reportDemTimeout_dma (s : State) : (reportDemTimeout s).dma = s.dma := by unfold reportDemTimeout; split <;> rfl
@[simp] theorem reportDemTimeout_discardWord (s : State) : (reportDemTimeout s).discardWord = s.discardWord := by unfold reportDemTimeout; split <;> rfl
@[simp] theorem reportDemTimeout_lpspi (s : State) : (reportDemTimeout s).lpspi = s.lpspi := by unfold reportDemTimeout; split <;> rfl
@[simp] theorem reportDemTimeout_mem (s : State) : (reportDemTimeout s).mem = s.mem := by unfold reportDemTimeout; split <;> rfl
@[simp] theorem reportDemTimeout_inputs (s : State) : (reportDemTimeout s).inputs = s.inputs := by unfold reportDemTimeout; split <;> rfl
@[simp] theorem reportDemTimeout_raised (s : State) : (reportDemTimeout s).raised = s.raised := by unfold reportDemTimeout; split <;> rfl
@[simp] theorem reportDemTimeout_freeCount (s : State) : (reportDemTimeout s).freeCount = s.freeCount := by unfold reportDemTimeout; split <;> rfl

/-! `fail` -/

@[simp] theorem fail_params (s : State) (op : Byte) (e : ErrName) (v : Word) : (fail op e v s).params = s.params := by
  simp [fail]
@[simp] theorem fail_hostConfigs (s : State) (op : Byte) (e : ErrName) (v : Word) : (fail op e v s).hostConfigs = s.hostConfigs := by
  simp [fail]
@[simp] theorem fail_cfg (s : State) (op : Byte) (e : ErrName) (v : Word) : (fail op e v s).cfg = s.cfg := by
  simp [fail]
@[simp] theorem fail_drvInit (s : State) (op : Byte) (e : ErrName) (v : Word) : (fail op e v s).drvInit = s.drvInit := by
  simp [fail]
@[simp] theorem fail_syncBusyMask (s : State) (op : Byte) (e : ErrName) (v : Word) : (fail op e v s).syncBusyMask = s.syncBusyMask := by
  simp [fail]
@[simp] theorem fail_seqUsedHWUnits (s : State) (op : Byte) (e : ErrName) (v : Word) : (fail op e v s).seqUsedHWUnits = s.seqUsedHWUnits := by
  simp [fail]
@[simp] theorem fail_seqCache (s : State) (op : Byte) (e : ErrName) (v : Word) : (fail op e v s).seqCache = s.seqCache := by
  simp [fail]
@[simp] theorem fail_chan (s : State) (op : Byte) (e : ErrName) (v : Word) : (fail op e v s).chan = s.chan := by
  simp [fail]
@[simp] theorem fail_job (s : State) (op : Byte) (e : ErrName) (v : Word) : (fail op e v s).job = s.job := by
  simp [fail]
@[simp] theorem fail_seq (s : State) (op : Byte) (e : ErrName) (v : Word) : (fail op e v s).seq = s.seq := by
  simp [fail]
@[simp] theorem fail_unit (s : State) (op : Byte) (e : ErrName) (v : Word) : (fail op e v s).unit = s.unit := by
  simp [fail]
@[simp] theorem fail_dev (s : State) (op : Byte) (e : ErrName) (v : Word) : (fail op e v s).dev = s.dev := by
  simp [fail]
@[simp] theorem fail_dma (s : State) (op : Byte) (e : ErrName) (v : Word) : (fail op e v s).dma = s.dma := by
  simp [fail]
@[simp] theorem fail_discardWord (s : State) (op : Byte) (e : ErrName) (v : Word) : (fail op e v s).discardWord = s.discardWord := by
  simp [fail]
@[simp] theorem fail_lpspi (s : State) (op : Byte) (e : ErrName) (v : Word) : (fail op e v s).lpspi = s.lpspi := by
  simp [fail]
@[simp] theorem fail_mem (s : State) (op : Byte) (e : ErrName) (v : Word) : (fail op e v s).mem = s.mem := by
  simp [fail]
@[simp] theorem fail_inputs (s : State) (op : Byte) (e : ErrName) (v : Word) : (fail op e v s).inputs = s.inputs := by
  simp [fail]
@[simp] theorem fail_raised (s : State) (op : Byte) (e : ErrName) (v : Word) : (fail op e v s).raised = s.raised := by
  simp [fail]
@[simp] theorem fail_freeCount (s : State) (op : Byte) (e : ErrName) (v : Word) : (fail op e v s).freeCount = s.freeCount := by
  simp [fail]

/-! Reading a table after a write -/

theorem tget_tset_same {α : Type} [Inhabited α] (l : List α) (i : Nat) (v : α) (h : i < l.length) : tget (tset l i v) i = v := by
  simp [tget, tset, List.getD, h]

theorem tget_tset_ne {α : Type} [Inhabited α] (l : List α) (i j : Nat) (v : α) (h : i ≠ j) : tget (tset l i v) j = tget l j := by
  simp [tget, tset, List.getD, List.getElem?_set_ne h]

theorem tget_tset_out {α : Type} [Inhabited α] (l : List α) (i j : Nat) (v : α) (h : l.length ≤ i) :
    tget (tset l i v) j = tget l j := by
  simp [tget, tset, List.set_eq_of_length_le h]

@[simp] theorem tset_length {α : Type} (l : List α) (i : Nat) (v : α) : (tset l i v).length = l.length := by simp [tset]

theorem tget_eq_getElem {α : Type} [Inhabited α] (l : List α) (i : Nat) (h : i < l.length) : tget l i = l[i] := by
  simp [tget, List.getD, h]

theorem tget_mem {α : Type} [Inhabited α] (l : List α) (i : Nat) (h : i < l.length) : tget l i ∈ l := by
  rw [tget_eq_getElem l i h]; exact List.getElem_mem h

theorem tget_out {α : Type} [Inhabited α] (l : List α) (i : Nat) (h : l.length ≤ i) : tget l i = default := by
  simp [tget, List.getD, h]

theorem devAt_setDev_same (s : State) (u : Nat) (d : Dev) (h : u < s.dev.length) : (s.setDev u d).devAt u = d :=
  tget_tset_same _ _ _ h

theorem devAt_setDev_ne (s : State) (u v : Nat) (d : Dev) (h : u ≠ v) : (s.setDev u d).devAt v = s.devAt v :=
  tget_tset_ne _ _ _ _ h

theorem jobAt_setJob_same (s : State) (j : Nat) (v : JobState) (h : j < s.job.length) : (s.setJob j v).jobAt j = v :=
  tget_tset_same _ _ _ h

theorem jobAt_setJob_ne (s : State) (j k : Nat) (v : JobState) (h : j ≠ k) : (s.setJob j v).jobAt k = s.jobAt k :=
  tget_tset_ne _ _ _ _ h

theorem seqAt_setSeq_same (s : State) (q : Nat) (v : SeqState) (h : q < s.seq.length) : (s.setSeq q v).seqAt q = v :=
  tget_tset_same _ _ _ h

theorem seqAt_setSeq_ne (s : State) (q r : Nat) (v : SeqState) (h : q ≠ r) : (s.setSeq q v).seqAt r = s.seqAt r :=
  tget_tset_ne _ _ _ _ h

theorem unitAt_setUnit_same (s : State) (u : Nat) (v : UnitQ) (h : u < s.unit.length) : (s.setUnit u v).unitAt u = v :=
  tget_tset_same _ _ _ h

theorem unitAt_setUnit_ne (s : State) (u w : Nat) (v : UnitQ) (h : u ≠ w) : (s.setUnit u v).unitAt w = s.unitAt w :=
  tget_tset_ne _ _ _ _ h

theorem chanAt_setChan_same (s : State) (c : Nat) (v : ChanState) (h : c < s.chan.length) : (s.setChan c v).chanAt c = v :=
  tget_tset_same _ _ _ h

theorem chanAt_setChan_ne (s : State) (c d : Nat) (v : ChanState) (h : c ≠ d) : (s.setChan c v).chanAt d = s.chanAt d :=
  tget_tset_ne _ _ _ _ h

theorem lpspiAt_setLpspi_same (s : State) (u : Nat) (v : Lpspi) (h : u < s.lpspi.length) : (s.setLpspi u v).lpspiAt u = v :=
  tget_tset_same _ _ _ h

theorem lpspiAt_setLpspi_ne (s : State) (u w : Nat) (v : Lpspi) (h : u ≠ w) : (s.setLpspi u v).lpspiAt w = s.lpspiAt w :=
  tget_tset_ne _ _ _ _ h

theorem dmaLookup_dmaStore_same (l : List (Nat × DmaChan)) (ch : Nat) (d : DmaChan) : dmaLookup (dmaStore l ch d) ch = d := by
  induction l with
  | nil => simp [dmaStore, dmaLookup]
  | cons e rest ih =>
    obtain ⟨k, x⟩ := e
    by_cases h : k = ch
    · simp [dmaStore, dmaLookup, h]
    · simp [dmaStore, dmaLookup, h, ih]

theorem dmaLookup_dmaStore_ne (l : List (Nat × DmaChan)) (ch c : Nat) (d : DmaChan) (hne : ch ≠ c) :
    dmaLookup (dmaStore l ch d) c = dmaLookup l c := by
  induction l with
  | nil => simp [dmaStore, dmaLookup, hne]
  | cons e rest ih =>
    obtain ⟨k, x⟩ := e
    by_cases h : k = ch
    · subst h; simp [dmaStore, dmaLookup, hne]
    · rw [dmaStore, if_neg h]
      by_cases h2 : k = c
      · simp [dmaLookup, h2]
      · simp [dmaLookup, h2, ih]

theorem dmaAt_setDma_same (s : State) (ch : Nat) (d : DmaChan) : (s.setDma ch d).dmaAt ch = d :=
  dmaLookup_dmaStore_same _ _ _

theorem dmaAt_setDma_ne (s : State) (ch c : Nat) (d : DmaChan) (h : ch ≠ c) : (s.setDma ch d).dmaAt c = s.dmaAt c :=
  dmaLookup_dmaStore_ne _ _ _ _ h

end Sys2Proof.Machine
end

