-- ==== Sys2Proof/Laws/Accessors.lean ====
section
/-! SUPPORT. What the accessors of the tables read after an update of another table. -/

namespace Sys2Proof.Machine

/-! `setChan` -/

@[simp] theorem setChan_jobAt (s : State) (c : Nat) (v : ChanState) (x : Nat) : (s.setChan c v).jobAt x = s.jobAt x := rfl
@[simp] theorem setChan_seqAt (s : State) (c : Nat) (v : ChanState) (x : Nat) : (s.setChan c v).seqAt x = s.seqAt x := rfl
@[simp] theorem setChan_unitAt (s : State) (c : Nat) (v : ChanState) (x : Nat) : (s.setChan c v).unitAt x = s.unitAt x := rfl
@[simp] theorem setChan_devAt (s : State) (c : Nat) (v : ChanState) (x : Nat) : (s.setChan c v).devAt x = s.devAt x := rfl
@[simp] theorem setChan_lpspiAt (s : State) (c : Nat) (v : ChanState) (x : Nat) : (s.setChan c v).lpspiAt x = s.lpspiAt x := rfl
@[simp] theorem setChan_dmaAt (s : State) (c : Nat) (v : ChanState) (x : Nat) : (s.setChan c v).dmaAt x = s.dmaAt x := rfl
@[simp] theorem setChan_usedUnits (s : State) (c : Nat) (v : ChanState) (x : Nat) : (s.setChan c v).usedUnits x = s.usedUnits x := rfl
@[simp] theorem setChan_unitOf (s : State) (c : Nat) (v : ChanState) (x : Nat) : (s.setChan c v).unitOf x = s.unitOf x := rfl
@[simp] theorem setChan_chanOf (s : State) (c : Nat) (v : ChanState) (x y : Nat) : (s.setChan c v).chanOf x y = s.chanOf x y := rfl
@[simp] theorem setChan_numChannelsOf (s : State) (c : Nat) (v : ChanState) (x : Nat) : (s.setChan c v).numChannelsOf x = s.numChannelsOf x := rfl
@[simp] theorem setChan_seqIsSync (s : State) (c : Nat) (v : ChanState) (x : Nat) : (s.setChan c v).seqIsSync x = s.seqIsSync x := rfl
@[simp] theorem setChan_hasAsync (s : State) (c : Nat) (v : ChanState) : (s.setChan c v).hasAsync = s.hasAsync := rfl
@[simp] theorem setChan_hasSync (s : State) (c : Nat) (v : ChanState) : (s.setChan c v).hasSync = s.hasSync := rfl
@[simp] theorem setChan_chanInRange (s : State) (c : Nat) (v : ChanState) (x : Nat) : (s.setChan c v).chanInRange x = s.chanInRange x := rfl
@[simp] theorem setChan_jobInRange (s : State) (c : Nat) (v : ChanState) (x : Nat) : (s.setChan c v).jobInRange x = s.jobInRange x := rfl
@[simp] theorem setChan_seqInRange (s : State) (c : Nat) (v : ChanState) (x : Nat) : (s.setChan c v).seqInRange x = s.seqInRange x := rfl
@[simp] theorem setChan_unitInRange (s : State) (c : Nat) (v : ChanState) (x : Nat) : (s.setChan c v).unitInRange x = s.unitInRange x := rfl

/-! `setJob` -/

@[simp] theorem setJob_chanAt (s : State) (j : Nat) (v : JobState) (x : Nat) : (s.setJob j v).chanAt x = s.chanAt x := rfl
@[simp] theorem setJob_seqAt (s : State) (j : Nat) (v : JobState) (x : Nat) : (s.setJob j v).seqAt x = s.seqAt x := rfl
@[simp] theorem setJob_unitAt (s : State) (j : Nat) (v : JobState) (x : Nat) : (s.setJob j v).unitAt x = s.unitAt x := rfl
@[simp] theorem setJob_devAt (s : State) (j : Nat) (v : JobState) (x : Nat) : (s.setJob j v).devAt x = s.devAt x := rfl
@[simp] theorem setJob_lpspiAt (s : State) (j : Nat) (v : JobState) (x : Nat) : (s.setJob j v).lpspiAt x = s.lpspiAt x := rfl
@[simp] theorem setJob_dmaAt (s : State) (j : Nat) (v : JobState) (x : Nat) : (s.setJob j v).dmaAt x = s.dmaAt x := rfl
@[simp] theorem setJob_usedUnits (s : State) (j : Nat) (v : JobState) (x : Nat) : (s.setJob j v).usedUnits x = s.usedUnits x := rfl
@[simp] theorem setJob_unitOf (s : State) (j : Nat) (v : JobState) (x : Nat) : (s.setJob j v).unitOf x = s.unitOf x := rfl
@[simp] theorem setJob_chanOf (s : State) (j : Nat) (v : JobState) (x y : Nat) : (s.setJob j v).chanOf x y = s.chanOf x y := rfl
@[simp] theorem setJob_numChannelsOf (s : State) (j : Nat) (v : JobState) (x : Nat) : (s.setJob j v).numChannelsOf x = s.numChannelsOf x := rfl
@[simp] theorem setJob_seqIsSync (s : State) (j : Nat) (v : JobState) (x : Nat) : (s.setJob j v).seqIsSync x = s.seqIsSync x := rfl
@[simp] theorem setJob_hasAsync (s : State) (j : Nat) (v : JobState) : (s.setJob j v).hasAsync = s.hasAsync := rfl
@[simp] theorem setJob_hasSync (s : State) (j : Nat) (v : JobState) : (s.setJob j v).hasSync = s.hasSync := rfl
@[simp] theorem setJob_chanInRange (s : State) (j : Nat) (v : JobState) (x : Nat) : (s.setJob j v).chanInRange x = s.chanInRange x := rfl
@[simp] theorem setJob_jobInRange (s : State) (j : Nat) (v : JobState) (x : Nat) : (s.setJob j v).jobInRange x = s.jobInRange x := rfl
@[simp] theorem setJob_seqInRange (s : State) (j : Nat) (v : JobState) (x : Nat) : (s.setJob j v).seqInRange x = s.seqInRange x := rfl
@[simp] theorem setJob_unitInRange (s : State) (j : Nat) (v : JobState) (x : Nat) : (s.setJob j v).unitInRange x = s.unitInRange x := rfl

/-! `setSeq` -/

@[simp] theorem setSeq_chanAt (s : State) (q : Nat) (v : SeqState) (x : Nat) : (s.setSeq q v).chanAt x = s.chanAt x := rfl
@[simp] theorem setSeq_jobAt (s : State) (q : Nat) (v : SeqState) (x : Nat) : (s.setSeq q v).jobAt x = s.jobAt x := rfl
@[simp] theorem setSeq_unitAt (s : State) (q : Nat) (v : SeqState) (x : Nat) : (s.setSeq q v).unitAt x = s.unitAt x := rfl
@[simp] theorem setSeq_devAt (s : State) (q : Nat) (v : SeqState) (x : Nat) : (s.setSeq q v).devAt x = s.devAt x := rfl
@[simp] theorem setSeq_lpspiAt (s : State) (q : Nat) (v : SeqState) (x : Nat) : (s.setSeq q v).lpspiAt x = s.lpspiAt x := rfl
@[simp] theorem setSeq_dmaAt (s : State) (q : Nat) (v : SeqState) (x : Nat) : (s.setSeq q v).dmaAt x = s.dmaAt x := rfl
@[simp] theorem setSeq_usedUnits (s : State) (q : Nat) (v : SeqState) (x : Nat) : (s.setSeq q v).usedUnits x = s.usedUnits x := rfl
@[simp] theorem setSeq_unitOf (s : State) (q : Nat) (v : SeqState) (x : Nat) : (s.setSeq q v).unitOf x = s.unitOf x := rfl
@[simp] theorem setSeq_chanOf (s : State) (q : Nat) (v : SeqState) (x y : Nat) : (s.setSeq q v).chanOf x y = s.chanOf x y := rfl
@[simp] theorem setSeq_numChannelsOf (s : State) (q : Nat) (v : SeqState) (x : Nat) : (s.setSeq q v).numChannelsOf x = s.numChannelsOf x := rfl
@[simp] theorem setSeq_seqIsSync (s : State) (q : Nat) (v : SeqState) (x : Nat) : (s.setSeq q v).seqIsSync x = s.seqIsSync x := rfl
@[simp] theorem setSeq_hasAsync (s : State) (q : Nat) (v : SeqState) : (s.setSeq q v).hasAsync = s.hasAsync := rfl
@[simp] theorem setSeq_hasSync (s : State) (q : Nat) (v : SeqState) : (s.setSeq q v).hasSync = s.hasSync := rfl
@[simp] theorem setSeq_chanInRange (s : State) (q : Nat) (v : SeqState) (x : Nat) : (s.setSeq q v).chanInRange x = s.chanInRange x := rfl
@[simp] theorem setSeq_jobInRange (s : State) (q : Nat) (v : SeqState) (x : Nat) : (s.setSeq q v).jobInRange x = s.jobInRange x := rfl
@[simp] theorem setSeq_seqInRange (s : State) (q : Nat) (v : SeqState) (x : Nat) : (s.setSeq q v).seqInRange x = s.seqInRange x := rfl
@[simp] theorem setSeq_unitInRange (s : State) (q : Nat) (v : SeqState) (x : Nat) : (s.setSeq q v).unitInRange x = s.unitInRange x := rfl

/-! `setUnit` -/

@[simp] theorem setUnit_chanAt (s : State) (u : Nat) (v : UnitQ) (x : Nat) : (s.setUnit u v).chanAt x = s.chanAt x := rfl
@[simp] theorem setUnit_jobAt (s : State) (u : Nat) (v : UnitQ) (x : Nat) : (s.setUnit u v).jobAt x = s.jobAt x := rfl
@[simp] theorem setUnit_seqAt (s : State) (u : Nat) (v : UnitQ) (x : Nat) : (s.setUnit u v).seqAt x = s.seqAt x := rfl
@[simp] theorem setUnit_devAt (s : State) (u : Nat) (v : UnitQ) (x : Nat) : (s.setUnit u v).devAt x = s.devAt x := rfl
@[simp] theorem setUnit_lpspiAt (s : State) (u : Nat) (v : UnitQ) (x : Nat) : (s.setUnit u v).lpspiAt x = s.lpspiAt x := rfl
@[simp] theorem setUnit_dmaAt (s : State) (u : Nat) (v : UnitQ) (x : Nat) : (s.setUnit u v).dmaAt x = s.dmaAt x := rfl
@[simp] theorem setUnit_usedUnits (s : State) (u : Nat) (v : UnitQ) (x : Nat) : (s.setUnit u v).usedUnits x = s.usedUnits x := rfl
@[simp] theorem setUnit_unitOf (s : State) (u : Nat) (v : UnitQ) (x : Nat) : (s.setUnit u v).unitOf x = s.unitOf x := rfl
@[simp] theorem setUnit_chanOf (s : State) (u : Nat) (v : UnitQ) (x y : Nat) : (s.setUnit u v).chanOf x y = s.chanOf x y := rfl
@[simp] theorem setUnit_numChannelsOf (s : State) (u : Nat) (v : UnitQ) (x : Nat) : (s.setUnit u v).numChannelsOf x = s.numChannelsOf x := rfl
@[simp] theorem setUnit_seqIsSync (s : State) (u : Nat) (v : UnitQ) (x : Nat) : (s.setUnit u v).seqIsSync x = s.seqIsSync x := rfl
@[simp] theorem setUnit_hasAsync (s : State) (u : Nat) (v : UnitQ) : (s.setUnit u v).hasAsync = s.hasAsync := rfl
@[simp] theorem setUnit_hasSync (s : State) (u : Nat) (v : UnitQ) : (s.setUnit u v).hasSync = s.hasSync := rfl
@[simp] theorem setUnit_chanInRange (s : State) (u : Nat) (v : UnitQ) (x : Nat) : (s.setUnit u v).chanInRange x = s.chanInRange x := rfl
@[simp] theorem setUnit_jobInRange (s : State) (u : Nat) (v : UnitQ) (x : Nat) : (s.setUnit u v).jobInRange x = s.jobInRange x := rfl
@[simp] theorem setUnit_seqInRange (s : State) (u : Nat) (v : UnitQ) (x : Nat) : (s.setUnit u v).seqInRange x = s.seqInRange x := rfl
@[simp] theorem setUnit_unitInRange (s : State) (u : Nat) (v : UnitQ) (x : Nat) : (s.setUnit u v).unitInRange x = s.unitInRange x := rfl

/-! `setDev` -/

@[simp] theorem setDev_chanAt (s : State) (u : Nat) (v : Dev) (x : Nat) : (s.setDev u v).chanAt x = s.chanAt x := rfl
@[simp] theorem setDev_jobAt (s : State) (u : Nat) (v : Dev) (x : Nat) : (s.setDev u v).jobAt x = s.jobAt x := rfl
@[simp] theorem setDev_seqAt (s : State) (u : Nat) (v : Dev) (x : Nat) : (s.setDev u v).seqAt x = s.seqAt x := rfl
@[simp] theorem setDev_unitAt (s : State) (u : Nat) (v : Dev) (x : Nat) : (s.setDev u v).unitAt x = s.unitAt x := rfl
@[simp] theorem setDev_lpspiAt (s : State) (u : Nat) (v : Dev) (x : Nat) : (s.setDev u v).lpspiAt x = s.lpspiAt x := rfl
@[simp] theorem setDev_dmaAt (s : State) (u : Nat) (v : Dev) (x : Nat) : (s.setDev u v).dmaAt x = s.dmaAt x := rfl
@[simp] theorem setDev_usedUnits (s : State) (u : Nat) (v : Dev) (x : Nat) : (s.setDev u v).usedUnits x = s.usedUnits x := rfl
@[simp] theorem setDev_unitOf (s : State) (u : Nat) (v : Dev) (x : Nat) : (s.setDev u v).unitOf x = s.unitOf x := rfl
@[simp] theorem setDev_chanOf (s : State) (u : Nat) (v : Dev) (x y : Nat) : (s.setDev u v).chanOf x y = s.chanOf x y := rfl
@[simp] theorem setDev_numChannelsOf (s : State) (u : Nat) (v : Dev) (x : Nat) : (s.setDev u v).numChannelsOf x = s.numChannelsOf x := rfl
@[simp] theorem setDev_seqIsSync (s : State) (u : Nat) (v : Dev) (x : Nat) : (s.setDev u v).seqIsSync x = s.seqIsSync x := rfl
@[simp] theorem setDev_hasAsync (s : State) (u : Nat) (v : Dev) : (s.setDev u v).hasAsync = s.hasAsync := rfl
@[simp] theorem setDev_hasSync (s : State) (u : Nat) (v : Dev) : (s.setDev u v).hasSync = s.hasSync := rfl
@[simp] theorem setDev_chanInRange (s : State) (u : Nat) (v : Dev) (x : Nat) : (s.setDev u v).chanInRange x = s.chanInRange x := rfl
@[simp] theorem setDev_jobInRange (s : State) (u : Nat) (v : Dev) (x : Nat) : (s.setDev u v).jobInRange x = s.jobInRange x := rfl
@[simp] theorem setDev_seqInRange (s : State) (u : Nat) (v : Dev) (x : Nat) : (s.setDev u v).seqInRange x = s.seqInRange x := rfl
@[simp] theorem setDev_unitInRange (s : State) (u : Nat) (v : Dev) (x : Nat) : (s.setDev u v).unitInRange x = s.unitInRange x := rfl

/-! `setLpspi` -/

@[simp] theorem setLpspi_chanAt (s : State) (u : Nat) (v : Lpspi) (x : Nat) : (s.setLpspi u v).chanAt x = s.chanAt x := rfl
@[simp] theorem setLpspi_jobAt (s : State) (u : Nat) (v : Lpspi) (x : Nat) : (s.setLpspi u v).jobAt x = s.jobAt x := rfl
@[simp] theorem setLpspi_seqAt (s : State) (u : Nat) (v : Lpspi) (x : Nat) : (s.setLpspi u v).seqAt x = s.seqAt x := rfl
@[simp] theorem setLpspi_unitAt (s : State) (u : Nat) (v : Lpspi) (x : Nat) : (s.setLpspi u v).unitAt x = s.unitAt x := rfl
@[simp] theorem setLpspi_devAt (s : State) (u : Nat) (v : Lpspi) (x : Nat) : (s.setLpspi u v).devAt x = s.devAt x := rfl
@[simp] theorem setLpspi_dmaAt (s : State) (u : Nat) (v : Lpspi) (x : Nat) : (s.setLpspi u v).dmaAt x = s.dmaAt x := rfl
@[simp] theorem setLpspi_usedUnits (s : State) (u : Nat) (v : Lpspi) (x : Nat) : (s.setLpspi u v).usedUnits x = s.usedUnits x := rfl
@[simp] theorem setLpspi_unitOf (s : State) (u : Nat) (v : Lpspi) (x : Nat) : (s.setLpspi u v).unitOf x = s.unitOf x := rfl
@[simp] theorem setLpspi_chanOf (s : State) (u : Nat) (v : Lpspi) (x y : Nat) : (s.setLpspi u v).chanOf x y = s.chanOf x y := rfl
@[simp] theorem setLpspi_numChannelsOf (s : State) (u : Nat) (v : Lpspi) (x : Nat) : (s.setLpspi u v).numChannelsOf x = s.numChannelsOf x := rfl
@[simp] theorem setLpspi_seqIsSync (s : State) (u : Nat) (v : Lpspi) (x : Nat) : (s.setLpspi u v).seqIsSync x = s.seqIsSync x := rfl
@[simp] theorem setLpspi_hasAsync (s : State) (u : Nat) (v : Lpspi) : (s.setLpspi u v).hasAsync = s.hasAsync := rfl
@[simp] theorem setLpspi_hasSync (s : State) (u : Nat) (v : Lpspi) : (s.setLpspi u v).hasSync = s.hasSync := rfl
@[simp] theorem setLpspi_chanInRange (s : State) (u : Nat) (v : Lpspi) (x : Nat) : (s.setLpspi u v).chanInRange x = s.chanInRange x := rfl
@[simp] theorem setLpspi_jobInRange (s : State) (u : Nat) (v : Lpspi) (x : Nat) : (s.setLpspi u v).jobInRange x = s.jobInRange x := rfl
@[simp] theorem setLpspi_seqInRange (s : State) (u : Nat) (v : Lpspi) (x : Nat) : (s.setLpspi u v).seqInRange x = s.seqInRange x := rfl
@[simp] theorem setLpspi_unitInRange (s : State) (u : Nat) (v : Lpspi) (x : Nat) : (s.setLpspi u v).unitInRange x = s.unitInRange x := rfl

/-! `setDma` -/

@[simp] theorem setDma_chanAt (s : State) (ch : Nat) (v : DmaChan) (x : Nat) : (s.setDma ch v).chanAt x = s.chanAt x := rfl
@[simp] theorem setDma_jobAt (s : State) (ch : Nat) (v : DmaChan) (x : Nat) : (s.setDma ch v).jobAt x = s.jobAt x := rfl
@[simp] theorem setDma_seqAt (s : State) (ch : Nat) (v : DmaChan) (x : Nat) : (s.setDma ch v).seqAt x = s.seqAt x := rfl
@[simp] theorem setDma_unitAt (s : State) (ch : Nat) (v : DmaChan) (x : Nat) : (s.setDma ch v).unitAt x = s.unitAt x := rfl
@[simp] theorem setDma_devAt (s : State) (ch : Nat) (v : DmaChan) (x : Nat) : (s.setDma ch v).devAt x = s.devAt x := rfl
@[simp] theorem setDma_lpspiAt (s : State) (ch : Nat) (v : DmaChan) (x : Nat) : (s.setDma ch v).lpspiAt x = s.lpspiAt x := rfl
@[simp] theorem setDma_usedUnits (s : State) (ch : Nat) (v : DmaChan) (x : Nat) : (s.setDma ch v).usedUnits x = s.usedUnits x := rfl
@[simp] theorem setDma_unitOf (s : State) (ch : Nat) (v : DmaChan) (x : Nat) : (s.setDma ch v).unitOf x = s.unitOf x := rfl
@[simp] theorem setDma_chanOf (s : State) (ch : Nat) (v : DmaChan) (x y : Nat) : (s.setDma ch v).chanOf x y = s.chanOf x y := rfl
@[simp] theorem setDma_numChannelsOf (s : State) (ch : Nat) (v : DmaChan) (x : Nat) : (s.setDma ch v).numChannelsOf x = s.numChannelsOf x := rfl
@[simp] theorem setDma_seqIsSync (s : State) (ch : Nat) (v : DmaChan) (x : Nat) : (s.setDma ch v).seqIsSync x = s.seqIsSync x := rfl
@[simp] theorem setDma_hasAsync (s : State) (ch : Nat) (v : DmaChan) : (s.setDma ch v).hasAsync = s.hasAsync := rfl
@[simp] theorem setDma_hasSync (s : State) (ch : Nat) (v : DmaChan) : (s.setDma ch v).hasSync = s.hasSync := rfl
@[simp] theorem setDma_chanInRange (s : State) (ch : Nat) (v : DmaChan) (x : Nat) : (s.setDma ch v).chanInRange x = s.chanInRange x := rfl
@[simp] theorem setDma_jobInRange (s : State) (ch : Nat) (v : DmaChan) (x : Nat) : (s.setDma ch v).jobInRange x = s.jobInRange x := rfl
@[simp] theorem setDma_seqInRange (s : State) (ch : Nat) (v : DmaChan) (x : Nat) : (s.setDma ch v).seqInRange x = s.seqInRange x := rfl
@[simp] theorem setDma_unitInRange (s : State) (ch : Nat) (v : DmaChan) (x : Nat) : (s.setDma ch v).unitInRange x = s.unitInRange x := rfl

/-! `setMem` -/

@[simp] theorem setMem_chanAt (s : State) (m : Memory) (x : Nat) : (s.setMem m).chanAt x = s.chanAt x := rfl
@[simp] theorem setMem_jobAt (s : State) (m : Memory) (x : Nat) : (s.setMem m).jobAt x = s.jobAt x := rfl
@[simp] theorem setMem_seqAt (s : State) (m : Memory) (x : Nat) : (s.setMem m).seqAt x = s.seqAt x := rfl
@[simp] theorem setMem_unitAt (s : State) (m : Memory) (x : Nat) : (s.setMem m).unitAt x = s.unitAt x := rfl
@[simp] theorem setMem_devAt (s : State) (m : Memory) (x : Nat) : (s.setMem m).devAt x = s.devAt x := rfl
@[simp] theorem setMem_lpspiAt (s : State) (m : Memory) (x : Nat) : (s.setMem m).lpspiAt x = s.lpspiAt x := rfl
@[simp] theorem setMem_dmaAt (s : State) (m : Memory) (x : Nat) : (s.setMem m).dmaAt x = s.dmaAt x := rfl
@[simp] theorem setMem_usedUnits (s : State) (m : Memory) (x : Nat) : (s.setMem m).usedUnits x = s.usedUnits x := rfl
@[simp] theorem setMem_unitOf (s : State) (m : Memory) (x : Nat) : (s.setMem m).unitOf x = s.unitOf x := rfl
@[simp] theorem setMem_chanOf (s : State) (m : Memory) (x y : Nat) : (s.setMem m).chanOf x y = s.chanOf x y := rfl
@[simp] theorem setMem_numChannelsOf (s : State) (m : Memory) (x : Nat) : (s.setMem m).numChannelsOf x = s.numChannelsOf x := rfl
@[simp] theorem setMem_seqIsSync (s : State) (m : Memory) (x : Nat) : (s.setMem m).seqIsSync x = s.seqIsSync x := rfl
@[simp] theorem setMem_hasAsync (s : State) (m : Memory) : (s.setMem m).hasAsync = s.hasAsync := rfl
@[simp] theorem setMem_hasSync (s : State) (m : Memory) : (s.setMem m).hasSync = s.hasSync := rfl
@[simp] theorem setMem_chanInRange (s : State) (m : Memory) (x : Nat) : (s.setMem m).chanInRange x = s.chanInRange x := rfl
@[simp] theorem setMem_jobInRange (s : State) (m : Memory) (x : Nat) : (s.setMem m).jobInRange x = s.jobInRange x := rfl
@[simp] theorem setMem_seqInRange (s : State) (m : Memory) (x : Nat) : (s.setMem m).seqInRange x = s.seqInRange x := rfl
@[simp] theorem setMem_unitInRange (s : State) (m : Memory) (x : Nat) : (s.setMem m).unitInRange x = s.unitInRange x := rfl

/-! `emit` -/

@[simp] theorem emit_chanAt (s : State) (e : Entry) (x : Nat) : (s.emit e).chanAt x = s.chanAt x := rfl
@[simp] theorem emit_jobAt (s : State) (e : Entry) (x : Nat) : (s.emit e).jobAt x = s.jobAt x := rfl
@[simp] theorem emit_seqAt (s : State) (e : Entry) (x : Nat) : (s.emit e).seqAt x = s.seqAt x := rfl
@[simp] theorem emit_unitAt (s : State) (e : Entry) (x : Nat) : (s.emit e).unitAt x = s.unitAt x := rfl
@[simp] theorem emit_devAt (s : State) (e : Entry) (x : Nat) : (s.emit e).devAt x = s.devAt x := rfl
@[simp] theorem emit_lpspiAt (s : State) (e : Entry) (x : Nat) : (s.emit e).lpspiAt x = s.lpspiAt x := rfl
@[simp] theorem emit_dmaAt (s : State) (e : Entry) (x : Nat) : (s.emit e).dmaAt x = s.dmaAt x := rfl
@[simp] theorem emit_usedUnits (s : State) (e : Entry) (x : Nat) : (s.emit e).usedUnits x = s.usedUnits x := rfl
@[simp] theorem emit_unitOf (s : State) (e : Entry) (x : Nat) : (s.emit e).unitOf x = s.unitOf x := rfl
@[simp] theorem emit_chanOf (s : State) (e : Entry) (x y : Nat) : (s.emit e).chanOf x y = s.chanOf x y := rfl
@[simp] theorem emit_numChannelsOf (s : State) (e : Entry) (x : Nat) : (s.emit e).numChannelsOf x = s.numChannelsOf x := rfl
@[simp] theorem emit_seqIsSync (s : State) (e : Entry) (x : Nat) : (s.emit e).seqIsSync x = s.seqIsSync x := rfl
@[simp] theorem emit_hasAsync (s : State) (e : Entry) : (s.emit e).hasAsync = s.hasAsync := rfl
@[simp] theorem emit_hasSync (s : State) (e : Entry) : (s.emit e).hasSync = s.hasSync := rfl
@[simp] theorem emit_chanInRange (s : State) (e : Entry) (x : Nat) : (s.emit e).chanInRange x = s.chanInRange x := rfl
@[simp] theorem emit_jobInRange (s : State) (e : Entry) (x : Nat) : (s.emit e).jobInRange x = s.jobInRange x := rfl
@[simp] theorem emit_seqInRange (s : State) (e : Entry) (x : Nat) : (s.emit e).seqInRange x = s.seqInRange x := rfl
@[simp] theorem emit_unitInRange (s : State) (e : Entry) (x : Nat) : (s.emit e).unitInRange x = s.unitInRange x := rfl

/-! `pokeReg` -/

@[simp] theorem pokeReg_chanAt (s : State) (u : Nat) (w : RegWrite) (x : Nat) : (s.pokeReg u w).chanAt x = s.chanAt x := rfl
@[simp] theorem pokeReg_jobAt (s : State) (u : Nat) (w : RegWrite) (x : Nat) : (s.pokeReg u w).jobAt x = s.jobAt x := rfl
@[simp] theorem pokeReg_seqAt (s : State) (u : Nat) (w : RegWrite) (x : Nat) : (s.pokeReg u w).seqAt x = s.seqAt x := rfl
@[simp] theorem pokeReg_unitAt (s : State) (u : Nat) (w : RegWrite) (x : Nat) : (s.pokeReg u w).unitAt x = s.unitAt x := rfl
@[simp] theorem pokeReg_devAt (s : State) (u : Nat) (w : RegWrite) (x : Nat) : (s.pokeReg u w).devAt x = s.devAt x := rfl
@[simp] theorem pokeReg_dmaAt (s : State) (u : Nat) (w : RegWrite) (x : Nat) : (s.pokeReg u w).dmaAt x = s.dmaAt x := rfl
@[simp] theorem pokeReg_usedUnits (s : State) (u : Nat) (w : RegWrite) (x : Nat) : (s.pokeReg u w).usedUnits x = s.usedUnits x := rfl
@[simp] theorem pokeReg_unitOf (s : State) (u : Nat) (w : RegWrite) (x : Nat) : (s.pokeReg u w).unitOf x = s.unitOf x := rfl
@[simp] theorem pokeReg_chanOf (s : State) (u : Nat) (w : RegWrite) (x y : Nat) : (s.pokeReg u w).chanOf x y = s.chanOf x y := rfl
@[simp] theorem pokeReg_numChannelsOf (s : State) (u : Nat) (w : RegWrite) (x : Nat) : (s.pokeReg u w).numChannelsOf x = s.numChannelsOf x := rfl
@[simp] theorem pokeReg_seqIsSync (s : State) (u : Nat) (w : RegWrite) (x : Nat) : (s.pokeReg u w).seqIsSync x = s.seqIsSync x := rfl
@[simp] theorem pokeReg_hasAsync (s : State) (u : Nat) (w : RegWrite) : (s.pokeReg u w).hasAsync = s.hasAsync := rfl
@[simp] theorem pokeReg_hasSync (s : State) (u : Nat) (w : RegWrite) : (s.pokeReg u w).hasSync = s.hasSync := rfl
@[simp] theorem pokeReg_chanInRange (s : State) (u : Nat) (w : RegWrite) (x : Nat) : (s.pokeReg u w).chanInRange x = s.chanInRange x := rfl
@[simp] theorem pokeReg_jobInRange (s : State) (u : Nat) (w : RegWrite) (x : Nat) : (s.pokeReg u w).jobInRange x = s.jobInRange x := rfl
@[simp] theorem pokeReg_seqInRange (s : State) (u : Nat) (w : RegWrite) (x : Nat) : (s.pokeReg u w).seqInRange x = s.seqInRange x := rfl
@[simp] theorem pokeReg_unitInRange (s : State) (u : Nat) (w : RegWrite) (x : Nat) : (s.pokeReg u w).unitInRange x = s.unitInRange x := rfl

/-! `soilUnit` -/

@[simp] theorem soilUnit_chanAt (s : State) (u : Nat) (x : Nat) : (s.soilUnit u).chanAt x = s.chanAt x := rfl
@[simp] theorem soilUnit_jobAt (s : State) (u : Nat) (x : Nat) : (s.soilUnit u).jobAt x = s.jobAt x := rfl
@[simp] theorem soilUnit_seqAt (s : State) (u : Nat) (x : Nat) : (s.soilUnit u).seqAt x = s.seqAt x := rfl
@[simp] theorem soilUnit_unitAt (s : State) (u : Nat) (x : Nat) : (s.soilUnit u).unitAt x = s.unitAt x := rfl
@[simp] theorem soilUnit_devAt (s : State) (u : Nat) (x : Nat) : (s.soilUnit u).devAt x = s.devAt x := rfl
@[simp] theorem soilUnit_dmaAt (s : State) (u : Nat) (x : Nat) : (s.soilUnit u).dmaAt x = s.dmaAt x := rfl
@[simp] theorem soilUnit_usedUnits (s : State) (u : Nat) (x : Nat) : (s.soilUnit u).usedUnits x = s.usedUnits x := rfl
@[simp] theorem soilUnit_unitOf (s : State) (u : Nat) (x : Nat) : (s.soilUnit u).unitOf x = s.unitOf x := rfl
@[simp] theorem soilUnit_chanOf (s : State) (u : Nat) (x y : Nat) : (s.soilUnit u).chanOf x y = s.chanOf x y := rfl
@[simp] theorem soilUnit_numChannelsOf (s : State) (u : Nat) (x : Nat) : (s.soilUnit u).numChannelsOf x = s.numChannelsOf x := rfl
@[simp] theorem soilUnit_seqIsSync (s : State) (u : Nat) (x : Nat) : (s.soilUnit u).seqIsSync x = s.seqIsSync x := rfl
@[simp] theorem soilUnit_hasAsync (s : State) (u : Nat) : (s.soilUnit u).hasAsync = s.hasAsync := rfl
@[simp] theorem soilUnit_hasSync (s : State) (u : Nat) : (s.soilUnit u).hasSync = s.hasSync := rfl
@[simp] theorem soilUnit_chanInRange (s : State) (u : Nat) (x : Nat) : (s.soilUnit u).chanInRange x = s.chanInRange x := rfl
@[simp] theorem soilUnit_jobInRange (s : State) (u : Nat) (x : Nat) : (s.soilUnit u).jobInRange x = s.jobInRange x := rfl
@[simp] theorem soilUnit_seqInRange (s : State) (u : Nat) (x : Nat) : (s.soilUnit u).seqInRange x = s.seqInRange x := rfl
@[simp] theorem soilUnit_unitInRange (s : State) (u : Nat) (x : Nat) : (s.soilUnit u).unitInRange x = s.unitInRange x := rfl

/-! `respond` -/

@[simp] theorem respond_chanAt (s : State) (v : Word) (x : Nat) : (respond v s).chanAt x = s.chanAt x := rfl
@[simp] theorem respond_jobAt (s : State) (v : Word) (x : Nat) : (respond v s).jobAt x = s.jobAt x := rfl
@[simp] theorem respond_seqAt (s : State) (v : Word) (x : Nat) : (respond v s).seqAt x = s.seqAt x := rfl
@[simp] theorem respond_unitAt (s : State) (v : Word) (x : Nat) : (respond v s).unitAt x = s.unitAt x := rfl
@[simp] theorem respond_devAt (s : State) (v : Word) (x : Nat) : (respond v s).devAt x = s.devAt x := rfl
@[simp] theorem respond_lpspiAt (s : State) (v : Word) (x : Nat) : (respond v s).lpspiAt x = s.lpspiAt x := rfl
@[simp] theorem respond_dmaAt (s : State) (v : Word) (x : Nat) : (respond v s).dmaAt x = s.dmaAt x := rfl
@[simp] theorem respond_usedUnits (s : State) (v : Word) (x : Nat) : (respond v s).usedUnits x = s.usedUnits x := rfl
@[simp] theorem respond_unitOf (s : State) (v : Word) (x : Nat) : (respond v s).unitOf x = s.unitOf x := rfl
@[simp] theorem respond_chanOf (s : State) (v : Word) (x y : Nat) : (respond v s).chanOf x y = s.chanOf x y := rfl
@[simp] theorem respond_numChannelsOf (s : State) (v : Word) (x : Nat) : (respond v s).numChannelsOf x = s.numChannelsOf x := rfl
@[simp] theorem respond_seqIsSync (s : State) (v : Word) (x : Nat) : (respond v s).seqIsSync x = s.seqIsSync x := rfl
@[simp] theorem respond_hasAsync (s : State) (v : Word) : (respond v s).hasAsync = s.hasAsync := rfl
@[simp] theorem respond_hasSync (s : State) (v : Word) : (respond v s).hasSync = s.hasSync := rfl
@[simp] theorem respond_chanInRange (s : State) (v : Word) (x : Nat) : (respond v s).chanInRange x = s.chanInRange x := rfl
@[simp] theorem respond_jobInRange (s : State) (v : Word) (x : Nat) : (respond v s).jobInRange x = s.jobInRange x := rfl
@[simp] theorem respond_seqInRange (s : State) (v : Word) (x : Nat) : (respond v s).seqInRange x = s.seqInRange x := rfl
@[simp] theorem respond_unitInRange (s : State) (v : Word) (x : Nat) : (respond v s).unitInRange x = s.unitInRange x := rfl

/-! `raise` -/

@[simp] theorem raise_chanAt (s : State) (op : Byte) (e : ErrName) (x : Nat) : (raise op e s).chanAt x = s.chanAt x := by unfold raise; split <;> rfl
@[simp] theorem raise_jobAt (s : State) (op : Byte) (e : ErrName) (x : Nat) : (raise op e s).jobAt x = s.jobAt x := by unfold raise; split <;> rfl
@[simp] theorem raise_seqAt (s : State) (op : Byte) (e : ErrName) (x : Nat) : (raise op e s).seqAt x = s.seqAt x := by unfold raise; split <;> rfl
@[simp] theorem raise_unitAt (s : State) (op : Byte) (e : ErrName) (x : Nat) : (raise op e s).unitAt x = s.unitAt x := by unfold raise; split <;> rfl
@[simp] theorem raise_devAt (s : State) (op : Byte) (e : ErrName) (x : Nat) : (raise op e s).devAt x = s.devAt x := by unfold raise; split <;> rfl
@[simp] theorem raise_lpspiAt (s : State) (op : Byte) (e : ErrName) (x : Nat) : (raise op e s).lpspiAt x = s.lpspiAt x := by unfold raise; split <;> rfl
@[simp] theorem raise_dmaAt (s : State) (op : Byte) (e : ErrName) (x : Nat) : (raise op e s).dmaAt x = s.dmaAt x := by unfold raise; split <;> rfl
@[simp] theorem raise_usedUnits (s : State) (op : Byte) (e : ErrName) (x : Nat) : (raise op e s).usedUnits x = s.usedUnits x := by unfold raise; split <;> rfl
@[simp] theorem raise_unitOf (s : State) (op : Byte) (e : ErrName) (x : Nat) : (raise op e s).unitOf x = s.unitOf x := by unfold raise; split <;> rfl
@[simp] theorem raise_chanOf (s : State) (op : Byte) (e : ErrName) (x y : Nat) : (raise op e s).chanOf x y = s.chanOf x y := by unfold raise; split <;> rfl
@[simp] theorem raise_numChannelsOf (s : State) (op : Byte) (e : ErrName) (x : Nat) : (raise op e s).numChannelsOf x = s.numChannelsOf x := by unfold raise; split <;> rfl
@[simp] theorem raise_seqIsSync (s : State) (op : Byte) (e : ErrName) (x : Nat) : (raise op e s).seqIsSync x = s.seqIsSync x := by unfold raise; split <;> rfl
@[simp] theorem raise_hasAsync (s : State) (op : Byte) (e : ErrName) : (raise op e s).hasAsync = s.hasAsync := by unfold raise; split <;> rfl
@[simp] theorem raise_hasSync (s : State) (op : Byte) (e : ErrName) : (raise op e s).hasSync = s.hasSync := by unfold raise; split <;> rfl
@[simp] theorem raise_chanInRange (s : State) (op : Byte) (e : ErrName) (x : Nat) : (raise op e s).chanInRange x = s.chanInRange x := by unfold raise; split <;> rfl
@[simp] theorem raise_jobInRange (s : State) (op : Byte) (e : ErrName) (x : Nat) : (raise op e s).jobInRange x = s.jobInRange x := by unfold raise; split <;> rfl
@[simp] theorem raise_seqInRange (s : State) (op : Byte) (e : ErrName) (x : Nat) : (raise op e s).seqInRange x = s.seqInRange x := by unfold raise; split <;> rfl
@[simp] theorem raise_unitInRange (s : State) (op : Byte) (e : ErrName) (x : Nat) : (raise op e s).unitInRange x = s.unitInRange x := by unfold raise; split <;> rfl

/-! `notify` -/

@[simp] theorem notify_chanAt (s : State) (on : Bool) (k : NotifKind) (i : Nat) (x : Nat) : (notify on k i s).chanAt x = s.chanAt x := by unfold notify; split <;> rfl
@[simp] theorem notify_jobAt (s : State) (on : Bool) (k : NotifKind) (i : Nat) (x : Nat) : (notify on k i s).jobAt x = s.jobAt x := by unfold notify; split <;> rfl
@[simp] theorem notify_seqAt (s : State) (on : Bool) (k : NotifKind) (i : Nat) (x : Nat) : (notify on k i s).seqAt x = s.seqAt x := by unfold notify; split <;> rfl
@[simp] theorem notify_unitAt (s : State) (on : Bool) (k : NotifKind) (i : Nat) (x : Nat) : (notify on k i s).unitAt x = s.unitAt x := by unfold notify; split <;> rfl
@[simp] theorem notify_devAt (s : State) (on : Bool) (k : NotifKind) (i : Nat) (x : Nat) : (notify on k i s).devAt x = s.devAt x := by unfold notify; split <;> rfl
@[simp] theorem notify_lpspiAt (s : State) (on : Bool) (k : NotifKind) (i : Nat) (x : Nat) : (notify on k i s).lpspiAt x = s.lpspiAt x := by unfold notify; split <;> rfl
@[simp] theorem notify_dmaAt (s : State) (on : Bool) (k : NotifKind) (i : Nat) (x : Nat) : (notify on k i s).dmaAt x = s.dmaAt x := by unfold notify; split <;> rfl
@[simp] theorem notify_usedUnits (s : State) (on : Bool) (k : NotifKind) (i : Nat) (x : Nat) : (notify on k i s).usedUnits x = s.usedUnits x := by unfold notify; split <;> rfl
@[simp] theorem notify_unitOf (s : State) (on : Bool) (k : NotifKind) (i : Nat) (x : Nat) : (notify on k i s).unitOf x = s.unitOf x := by unfold notify; split <;> rfl
@[simp] theorem notify_chanOf (s : State) (on : Bool) (k : NotifKind) (i : Nat) (x y : Nat) : (notify on k i s).chanOf x y = s.chanOf x y := by unfold notify; split <;> rfl
@[simp] theorem notify_numChannelsOf (s : State) (on : Bool) (k : NotifKind) (i : Nat) (x : Nat) : (notify on k i s).numChannelsOf x = s.numChannelsOf x := by unfold notify; split <;> rfl
@[simp] theorem notify_seqIsSync (s : State) (on : Bool) (k : NotifKind) (i : Nat) (x : Nat) : (notify on k i s).seqIsSync x = s.seqIsSync x := by unfold notify; split <;> rfl
@[simp] theorem notify_hasAsync (s : State) (on : Bool) (k : NotifKind) (i : Nat) : (notify on k i s).hasAsync = s.hasAsync := by unfold notify; split <;> rfl
@[simp] theorem notify_hasSync (s : State) (on : Bool) (k : NotifKind) (i : Nat) : (notify on k i s).hasSync = s.hasSync := by unfold notify; split <;> rfl
@[simp] theorem notify_chanInRange (s : State) (on : Bool) (k : NotifKind) (i : Nat) (x : Nat) : (notify on k i s).chanInRange x = s.chanInRange x := by unfold notify; split <;> rfl
@[simp] theorem notify_jobInRange (s : State) (on : Bool) (k : NotifKind) (i : Nat) (x : Nat) : (notify on k i s).jobInRange x = s.jobInRange x := by unfold notify; split <;> rfl
@[simp] theorem notify_seqInRange (s : State) (on : Bool) (k : NotifKind) (i : Nat) (x : Nat) : (notify on k i s).seqInRange x = s.seqInRange x := by unfold notify; split <;> rfl
@[simp] theorem notify_unitInRange (s : State) (on : Bool) (k : NotifKind) (i : Nat) (x : Nat) : (notify on k i s).unitInRange x = s.unitInRange x := by unfold notify; split <;> rfl

/-! `fail` -/

@[simp] theorem fail_chanAt (s : State) (op : Byte) (e : ErrName) (v : Word) (x : Nat) : (fail op e v s).chanAt x = s.chanAt x := by unfold fail raise; split <;> rfl
@[simp] theorem fail_jobAt (s : State) (op : Byte) (e : ErrName) (v : Word) (x : Nat) : (fail op e v s).jobAt x = s.jobAt x := by unfold fail raise; split <;> rfl
@[simp] theorem fail_seqAt (s : State) (op : Byte) (e : ErrName) (v : Word) (x : Nat) : (fail op e v s).seqAt x = s.seqAt x := by unfold fail raise; split <;> rfl
@[simp] theorem fail_unitAt (s : State) (op : Byte) (e : ErrName) (v : Word) (x : Nat) : (fail op e v s).unitAt x = s.unitAt x := by unfold fail raise; split <;> rfl
@[simp] theorem fail_devAt (s : State) (op : Byte) (e : ErrName) (v : Word) (x : Nat) : (fail op e v s).devAt x = s.devAt x := by unfold fail raise; split <;> rfl
@[simp] theorem fail_lpspiAt (s : State) (op : Byte) (e : ErrName) (v : Word) (x : Nat) : (fail op e v s).lpspiAt x = s.lpspiAt x := by unfold fail raise; split <;> rfl
@[simp] theorem fail_dmaAt (s : State) (op : Byte) (e : ErrName) (v : Word) (x : Nat) : (fail op e v s).dmaAt x = s.dmaAt x := by unfold fail raise; split <;> rfl
@[simp] theorem fail_usedUnits (s : State) (op : Byte) (e : ErrName) (v : Word) (x : Nat) : (fail op e v s).usedUnits x = s.usedUnits x := by unfold fail raise; split <;> rfl
@[simp] theorem fail_unitOf (s : State) (op : Byte) (e : ErrName) (v : Word) (x : Nat) : (fail op e v s).unitOf x = s.unitOf x := by unfold fail raise; split <;> rfl
@[simp] theorem fail_chanOf (s : State) (op : Byte) (e : ErrName) (v : Word) (x y : Nat) : (fail op e v s).chanOf x y = s.chanOf x y := by unfold fail raise; split <;> rfl
@[simp] theorem fail_numChannelsOf (s : State) (op : Byte) (e : ErrName) (v : Word) (x : Nat) : (fail op e v s).numChannelsOf x = s.numChannelsOf x := by unfold fail raise; split <;> rfl
@[simp] theorem fail_seqIsSync (s : State) (op : Byte) (e : ErrName) (v : Word) (x : Nat) : (fail op e v s).seqIsSync x = s.seqIsSync x := by unfold fail raise; split <;> rfl
@[simp] theorem fail_hasAsync (s : State) (op : Byte) (e : ErrName) (v : Word) : (fail op e v s).hasAsync = s.hasAsync := by unfold fail raise; split <;> rfl
@[simp] theorem fail_hasSync (s : State) (op : Byte) (e : ErrName) (v : Word) : (fail op e v s).hasSync = s.hasSync := by unfold fail raise; split <;> rfl
@[simp] theorem fail_chanInRange (s : State) (op : Byte) (e : ErrName) (v : Word) (x : Nat) : (fail op e v s).chanInRange x = s.chanInRange x := by unfold fail raise; split <;> rfl
@[simp] theorem fail_jobInRange (s : State) (op : Byte) (e : ErrName) (v : Word) (x : Nat) : (fail op e v s).jobInRange x = s.jobInRange x := by unfold fail raise; split <;> rfl
@[simp] theorem fail_seqInRange (s : State) (op : Byte) (e : ErrName) (v : Word) (x : Nat) : (fail op e v s).seqInRange x = s.seqInRange x := by unfold fail raise; split <;> rfl
@[simp] theorem fail_unitInRange (s : State) (op : Byte) (e : ErrName) (v : Word) (x : Nat) : (fail op e v s).unitInRange x = s.unitInRange x := by unfold fail raise; split <;> rfl

/-! `setJobResult` -/

@[simp] theorem setJobResult_chanAt (s : State) (j : Nat) (r : JobResult) (x : Nat) : (s.setJobResult j r).chanAt x = s.chanAt x := rfl
@[simp] theorem setJobResult_seqAt (s : State) (j : Nat) (r : JobResult) (x : Nat) : (s.setJobResult j r).seqAt x = s.seqAt x := rfl
@[simp] theorem setJobResult_unitAt (s : State) (j : Nat) (r : JobResult) (x : Nat) : (s.setJobResult j r).unitAt x = s.unitAt x := rfl
@[simp] theorem setJobResult_devAt (s : State) (j : Nat) (r : JobResult) (x : Nat) : (s.setJobResult j r).devAt x = s.devAt x := rfl
@[simp] theorem setJobResult_lpspiAt (s : State) (j : Nat) (r : JobResult) (x : Nat) : (s.setJobResult j r).lpspiAt x = s.lpspiAt x := rfl
@[simp] theorem setJobResult_dmaAt (s : State) (j : Nat) (r : JobResult) (x : Nat) : (s.setJobResult j r).dmaAt x = s.dmaAt x := rfl
@[simp] theorem setJobResult_usedUnits (s : State) (j : Nat) (r : JobResult) (x : Nat) : (s.setJobResult j r).usedUnits x = s.usedUnits x := rfl
@[simp] theorem setJobResult_unitOf (s : State) (j : Nat) (r : JobResult) (x : Nat) : (s.setJobResult j r).unitOf x = s.unitOf x := rfl
@[simp] theorem setJobResult_chanOf (s : State) (j : Nat) (r : JobResult) (x y : Nat) : (s.setJobResult j r).chanOf x y = s.chanOf x y := rfl
@[simp] theorem setJobResult_numChannelsOf (s : State) (j : Nat) (r : JobResult) (x : Nat) : (s.setJobResult j r).numChannelsOf x = s.numChannelsOf x := rfl
@[simp] theorem setJobResult_seqIsSync (s : State) (j : Nat) (r : JobResult) (x : Nat) : (s.setJobResult j r).seqIsSync x = s.seqIsSync x := rfl
@[simp] theorem setJobResult_hasAsync (s : State) (j : Nat) (r : JobResult) : (s.setJobResult j r).hasAsync = s.hasAsync := rfl
@[simp] theorem setJobResult_hasSync (s : State) (j : Nat) (r : JobResult) : (s.setJobResult j r).hasSync = s.hasSync := rfl
@[simp] theorem setJobResult_chanInRange (s : State) (j : Nat) (r : JobResult) (x : Nat) : (s.setJobResult j r).chanInRange x = s.chanInRange x := rfl
@[simp] theorem setJobResult_jobInRange (s : State) (j : Nat) (r : JobResult) (x : Nat) : (s.setJobResult j r).jobInRange x = s.jobInRange x := rfl
@[simp] theorem setJobResult_seqInRange (s : State) (j : Nat) (r : JobResult) (x : Nat) : (s.setJobResult j r).seqInRange x = s.seqInRange x := rfl
@[simp] theorem setJobResult_unitInRange (s : State) (j : Nat) (r : JobResult) (x : Nat) : (s.setJobResult j r).unitInRange x = s.unitInRange x := rfl

/-! `setJobOwner` -/

@[simp] theorem setJobOwner_chanAt (s : State) (j : Nat) (o : Option Nat) (x : Nat) : (s.setJobOwner j o).chanAt x = s.chanAt x := rfl
@[simp] theorem setJobOwner_seqAt (s : State) (j : Nat) (o : Option Nat) (x : Nat) : (s.setJobOwner j o).seqAt x = s.seqAt x := rfl
@[simp] theorem setJobOwner_unitAt (s : State) (j : Nat) (o : Option Nat) (x : Nat) : (s.setJobOwner j o).unitAt x = s.unitAt x := rfl
@[simp] theorem setJobOwner_devAt (s : State) (j : Nat) (o : Option Nat) (x : Nat) : (s.setJobOwner j o).devAt x = s.devAt x := rfl
@[simp] theorem setJobOwner_lpspiAt (s : State) (j : Nat) (o : Option Nat) (x : Nat) : (s.setJobOwner j o).lpspiAt x = s.lpspiAt x := rfl
@[simp] theorem setJobOwner_dmaAt (s : State) (j : Nat) (o : Option Nat) (x : Nat) : (s.setJobOwner j o).dmaAt x = s.dmaAt x := rfl
@[simp] theorem setJobOwner_usedUnits (s : State) (j : Nat) (o : Option Nat) (x : Nat) : (s.setJobOwner j o).usedUnits x = s.usedUnits x := rfl
@[simp] theorem setJobOwner_unitOf (s : State) (j : Nat) (o : Option Nat) (x : Nat) : (s.setJobOwner j o).unitOf x = s.unitOf x := rfl
@[simp] theorem setJobOwner_chanOf (s : State) (j : Nat) (o : Option Nat) (x y : Nat) : (s.setJobOwner j o).chanOf x y = s.chanOf x y := rfl
@[simp] theorem setJobOwner_numChannelsOf (s : State) (j : Nat) (o : Option Nat) (x : Nat) : (s.setJobOwner j o).numChannelsOf x = s.numChannelsOf x := rfl
@[simp] theorem setJobOwner_seqIsSync (s : State) (j : Nat) (o : Option Nat) (x : Nat) : (s.setJobOwner j o).seqIsSync x = s.seqIsSync x := rfl
@[simp] theorem setJobOwner_hasAsync (s : State) (j : Nat) (o : Option Nat) : (s.setJobOwner j o).hasAsync = s.hasAsync := rfl
@[simp] theorem setJobOwner_hasSync (s : State) (j : Nat) (o : Option Nat) : (s.setJobOwner j o).hasSync = s.hasSync := rfl
@[simp] theorem setJobOwner_chanInRange (s : State) (j : Nat) (o : Option Nat) (x : Nat) : (s.setJobOwner j o).chanInRange x = s.chanInRange x := rfl
@[simp] theorem setJobOwner_jobInRange (s : State) (j : Nat) (o : Option Nat) (x : Nat) : (s.setJobOwner j o).jobInRange x = s.jobInRange x := rfl
@[simp] theorem setJobOwner_seqInRange (s : State) (j : Nat) (o : Option Nat) (x : Nat) : (s.setJobOwner j o).seqInRange x = s.seqInRange x := rfl
@[simp] theorem setJobOwner_unitInRange (s : State) (j : Nat) (o : Option Nat) (x : Nat) : (s.setJobOwner j o).unitInRange x = s.unitInRange x := rfl

/-! `setJobNext` -/

@[simp] theorem setJobNext_chanAt (s : State) (j : Nat) (o : Option Nat) (x : Nat) : (s.setJobNext j o).chanAt x = s.chanAt x := rfl
@[simp] theorem setJobNext_seqAt (s : State) (j : Nat) (o : Option Nat) (x : Nat) : (s.setJobNext j o).seqAt x = s.seqAt x := rfl
@[simp] theorem setJobNext_unitAt (s : State) (j : Nat) (o : Option Nat) (x : Nat) : (s.setJobNext j o).unitAt x = s.unitAt x := rfl
@[simp] theorem setJobNext_devAt (s : State) (j : Nat) (o : Option Nat) (x : Nat) : (s.setJobNext j o).devAt x = s.devAt x := rfl
@[simp] theorem setJobNext_lpspiAt (s : State) (j : Nat) (o : Option Nat) (x : Nat) : (s.setJobNext j o).lpspiAt x = s.lpspiAt x := rfl
@[simp] theorem setJobNext_dmaAt (s : State) (j : Nat) (o : Option Nat) (x : Nat) : (s.setJobNext j o).dmaAt x = s.dmaAt x := rfl
@[simp] theorem setJobNext_usedUnits (s : State) (j : Nat) (o : Option Nat) (x : Nat) : (s.setJobNext j o).usedUnits x = s.usedUnits x := rfl
@[simp] theorem setJobNext_unitOf (s : State) (j : Nat) (o : Option Nat) (x : Nat) : (s.setJobNext j o).unitOf x = s.unitOf x := rfl
@[simp] theorem setJobNext_chanOf (s : State) (j : Nat) (o : Option Nat) (x y : Nat) : (s.setJobNext j o).chanOf x y = s.chanOf x y := rfl
@[simp] theorem setJobNext_numChannelsOf (s : State) (j : Nat) (o : Option Nat) (x : Nat) : (s.setJobNext j o).numChannelsOf x = s.numChannelsOf x := rfl
@[simp] theorem setJobNext_seqIsSync (s : State) (j : Nat) (o : Option Nat) (x : Nat) : (s.setJobNext j o).seqIsSync x = s.seqIsSync x := rfl
@[simp] theorem setJobNext_hasAsync (s : State) (j : Nat) (o : Option Nat) : (s.setJobNext j o).hasAsync = s.hasAsync := rfl
@[simp] theorem setJobNext_hasSync (s : State) (j : Nat) (o : Option Nat) : (s.setJobNext j o).hasSync = s.hasSync := rfl
@[simp] theorem setJobNext_chanInRange (s : State) (j : Nat) (o : Option Nat) (x : Nat) : (s.setJobNext j o).chanInRange x = s.chanInRange x := rfl
@[simp] theorem setJobNext_jobInRange (s : State) (j : Nat) (o : Option Nat) (x : Nat) : (s.setJobNext j o).jobInRange x = s.jobInRange x := rfl
@[simp] theorem setJobNext_seqInRange (s : State) (j : Nat) (o : Option Nat) (x : Nat) : (s.setJobNext j o).seqInRange x = s.seqInRange x := rfl
@[simp] theorem setJobNext_unitInRange (s : State) (j : Nat) (o : Option Nat) (x : Nat) : (s.setJobNext j o).unitInRange x = s.unitInRange x := rfl

/-! `setSeqResult` -/

@[simp] theorem setSeqResult_chanAt (s : State) (q : Nat) (r : SeqResult) (x : Nat) : (s.setSeqResult q r).chanAt x = s.chanAt x := rfl
@[simp] theorem setSeqResult_jobAt (s : State) (q : Nat) (r : SeqResult) (x : Nat) : (s.setSeqResult q r).jobAt x = s.jobAt x := rfl
@[simp] theorem setSeqResult_unitAt (s : State) (q : Nat) (r : SeqResult) (x : Nat) : (s.setSeqResult q r).unitAt x = s.unitAt x := rfl
@[simp] theorem setSeqResult_devAt (s : State) (q : Nat) (r : SeqResult) (x : Nat) : (s.setSeqResult q r).devAt x = s.devAt x := rfl
@[simp] theorem setSeqResult_lpspiAt (s : State) (q : Nat) (r : SeqResult) (x : Nat) : (s.setSeqResult q r).lpspiAt x = s.lpspiAt x := rfl
@[simp] theorem setSeqResult_dmaAt (s : State) (q : Nat) (r : SeqResult) (x : Nat) : (s.setSeqResult q r).dmaAt x = s.dmaAt x := rfl
@[simp] theorem setSeqResult_usedUnits (s : State) (q : Nat) (r : SeqResult) (x : Nat) : (s.setSeqResult q r).usedUnits x = s.usedUnits x := rfl
@[simp] theorem setSeqResult_unitOf (s : State) (q : Nat) (r : SeqResult) (x : Nat) : (s.setSeqResult q r).unitOf x = s.unitOf x := rfl
@[simp] theorem setSeqResult_chanOf (s : State) (q : Nat) (r : SeqResult) (x y : Nat) : (s.setSeqResult q r).chanOf x y = s.chanOf x y := rfl
@[simp] theorem setSeqResult_numChannelsOf (s : State) (q : Nat) (r : SeqResult) (x : Nat) : (s.setSeqResult q r).numChannelsOf x = s.numChannelsOf x := rfl
@[simp] theorem setSeqResult_seqIsSync (s : State) (q : Nat) (r : SeqResult) (x : Nat) : (s.setSeqResult q r).seqIsSync x = s.seqIsSync x := rfl
@[simp] theorem setSeqResult_hasAsync (s : State) (q : Nat) (r : SeqResult) : (s.setSeqResult q r).hasAsync = s.hasAsync := rfl
@[simp] theorem setSeqResult_hasSync (s : State) (q : Nat) (r : SeqResult) : (s.setSeqResult q r).hasSync = s.hasSync := rfl
@[simp] theorem setSeqResult_chanInRange (s : State) (q : Nat) (r : SeqResult) (x : Nat) : (s.setSeqResult q r).chanInRange x = s.chanInRange x := rfl
@[simp] theorem setSeqResult_jobInRange (s : State) (q : Nat) (r : SeqResult) (x : Nat) : (s.setSeqResult q r).jobInRange x = s.jobInRange x := rfl
@[simp] theorem setSeqResult_seqInRange (s : State) (q : Nat) (r : SeqResult) (x : Nat) : (s.setSeqResult q r).seqInRange x = s.seqInRange x := rfl
@[simp] theorem setSeqResult_unitInRange (s : State) (q : Nat) (r : SeqResult) (x : Nat) : (s.setSeqResult q r).unitInRange x = s.unitInRange x := rfl

/-! `setUnitStatus` -/

@[simp] theorem setUnitStatus_chanAt (s : State) (u : Nat) (st : Status) (x : Nat) : (s.setUnitStatus u st).chanAt x = s.chanAt x := rfl
@[simp] theorem setUnitStatus_jobAt (s : State) (u : Nat) (st : Status) (x : Nat) : (s.setUnitStatus u st).jobAt x = s.jobAt x := rfl
@[simp] theorem setUnitStatus_seqAt (s : State) (u : Nat) (st : Status) (x : Nat) : (s.setUnitStatus u st).seqAt x = s.seqAt x := rfl
@[simp] theorem setUnitStatus_devAt (s : State) (u : Nat) (st : Status) (x : Nat) : (s.setUnitStatus u st).devAt x = s.devAt x := rfl
@[simp] theorem setUnitStatus_lpspiAt (s : State) (u : Nat) (st : Status) (x : Nat) : (s.setUnitStatus u st).lpspiAt x = s.lpspiAt x := rfl
@[simp] theorem setUnitStatus_dmaAt (s : State) (u : Nat) (st : Status) (x : Nat) : (s.setUnitStatus u st).dmaAt x = s.dmaAt x := rfl
@[simp] theorem setUnitStatus_usedUnits (s : State) (u : Nat) (st : Status) (x : Nat) : (s.setUnitStatus u st).usedUnits x = s.usedUnits x := rfl
@[simp] theorem setUnitStatus_unitOf (s : State) (u : Nat) (st : Status) (x : Nat) : (s.setUnitStatus u st).unitOf x = s.unitOf x := rfl
@[simp] theorem setUnitStatus_chanOf (s : State) (u : Nat) (st : Status) (x y : Nat) : (s.setUnitStatus u st).chanOf x y = s.chanOf x y := rfl
@[simp] theorem setUnitStatus_numChannelsOf (s : State) (u : Nat) (st : Status) (x : Nat) : (s.setUnitStatus u st).numChannelsOf x = s.numChannelsOf x := rfl
@[simp] theorem setUnitStatus_seqIsSync (s : State) (u : Nat) (st : Status) (x : Nat) : (s.setUnitStatus u st).seqIsSync x = s.seqIsSync x := rfl
@[simp] theorem setUnitStatus_hasAsync (s : State) (u : Nat) (st : Status) : (s.setUnitStatus u st).hasAsync = s.hasAsync := rfl
@[simp] theorem setUnitStatus_hasSync (s : State) (u : Nat) (st : Status) : (s.setUnitStatus u st).hasSync = s.hasSync := rfl
@[simp] theorem setUnitStatus_chanInRange (s : State) (u : Nat) (st : Status) (x : Nat) : (s.setUnitStatus u st).chanInRange x = s.chanInRange x := rfl
@[simp] theorem setUnitStatus_jobInRange (s : State) (u : Nat) (st : Status) (x : Nat) : (s.setUnitStatus u st).jobInRange x = s.jobInRange x := rfl
@[simp] theorem setUnitStatus_seqInRange (s : State) (u : Nat) (st : Status) (x : Nat) : (s.setUnitStatus u st).seqInRange x = s.seqInRange x := rfl
@[simp] theorem setUnitStatus_unitInRange (s : State) (u : Nat) (st : Status) (x : Nat) : (s.setUnitStatus u st).unitInRange x = s.unitInRange x := rfl

end Sys2Proof.Machine
end

