-- ==== Sys2Proof/Laws/Memory.lean ====
section
/-! SUPPORT. Buffer memory: every operation keeps the canonical form, a read after a write gives what was written, and a write
leaves every other byte alone. -/

namespace Sys2Proof.Machine

/-! The canonical form -/

theorem wfFrom_mono {lo lo' : Nat} {m : Memory} (h : Memory.wfFrom lo m = true) (hle : lo' ≤ lo) : Memory.wfFrom lo' m = true := by
  cases m with
  | nil => rfl
  | cons e rest =>
    obtain ⟨a, b⟩ := e
    simp only [Memory.wfFrom, Bool.and_eq_true, decide_eq_true_eq] at h ⊢
    exact ⟨by omega, h.2⟩

theorem cellOf_wfFrom {x : Nat} {v : Byte} {rest : Memory} (h : Memory.wfFrom (x + 1) rest = true) :
    Memory.wfFrom x (cellOf x v rest) = true := by
  unfold cellOf
  split
  · exact wfFrom_mono h (by omega)
  · rename_i hv
    simp [Memory.wfFrom, hv, h]

theorem writeByte_wfFrom {lo x : Nat} {v : Byte} {m : Memory} (h : Memory.wfFrom lo m = true) (hx : lo ≤ x) :
    Memory.wfFrom lo (writeByte m x v) = true := by
  induction m generalizing lo with
  | nil => exact wfFrom_mono (cellOf_wfFrom (by rfl)) hx
  | cons e rest ih =>
    obtain ⟨a, b⟩ := e
    simp only [Memory.wfFrom, Bool.and_eq_true, decide_eq_true_eq] at h
    simp only [writeByte]
    split
    · exact wfFrom_mono (cellOf_wfFrom (by simp [Memory.wfFrom, h.2]; omega)) hx
    · split
      · rename_i hxa
        subst hxa
        exact wfFrom_mono (cellOf_wfFrom h.2.2) hx
      · simp only [Memory.wfFrom, Bool.and_eq_true, decide_eq_true_eq]
        exact ⟨h.1, h.2.1, ih h.2.2 (by omega)⟩

theorem writeByte_wf {m : Memory} (h : Memory.wf m = true) (x : Nat) (v : Byte) : Memory.wf (writeByte m x v) = true :=
  writeByte_wfFrom h (Nat.zero_le x)

theorem memWrite_wf {m : Memory} (h : Memory.wf m = true) (a n v : Nat) : Memory.wf (memWrite m a n v) = true := by
  induction n generalizing m a v with
  | zero => exact h
  | succ n ih => exact ih (writeByte_wf h _ _) _ _

theorem storeBytes_wf {m m' : Memory} {a n : Nat} {v : Word} (h : Memory.wf m = true) (hs : storeBytes m a n v = .ok m') :
    Memory.wf m' = true := by
  unfold storeBytes at hs
  split at hs
  · cases hs; exact memWrite_wf h _ _ _
  · cases hs

theorem copyFrames_wf {m m' : Memory} {b n src dst : Nat} (h : Memory.wf m = true) (hc : copyFrames m b n src dst = .ok m') :
    Memory.wf m' = true := by
  induction n generalizing m src dst with
  | zero => cases hc; exact h
  | succ n ih =>
    simp only [copyFrames] at hc
    split at hc
    · cases hc
    · split at hc
      · cases hc
      · rename_i hs
        exact ih (storeBytes_wf h hs) hc

theorem reset_mem_wf : Memory.wf State.reset.mem = true := rfl

/-! Reading after writing -/

theorem readByte_below {lo x : Nat} {m : Memory} (h : Memory.wfFrom lo m = true) (hx : x < lo) :
    readByte m x = unwrittenByte := by
  induction m generalizing lo with
  | nil => rfl
  | cons e rest ih =>
    obtain ⟨a, b⟩ := e
    simp only [Memory.wfFrom, Bool.and_eq_true, decide_eq_true_eq] at h
    have : a ≠ x := by omega
    simp only [readByte, this, if_false]
    exact ih h.2.2 (by omega)

theorem readByte_cellOf_same {x : Nat} {v : Byte} {rest : Memory} (h : Memory.wfFrom (x + 1) rest = true) :
    readByte (cellOf x v rest) x = v := by
  unfold cellOf
  split
  · rename_i hv
    rw [hv]; exact readByte_below h (by omega)
  · simp [readByte]

theorem readByte_cellOf_ne {x y : Nat} {v : Byte} {rest : Memory} (h : x ≠ y) :
    readByte (cellOf x v rest) y = readByte rest y := by
  unfold cellOf
  split
  · rfl
  · simp [readByte, h]

theorem readByte_writeByte_same {lo x : Nat} {v : Byte} {m : Memory} (h : Memory.wfFrom lo m = true) :
    readByte (writeByte m x v) x = v := by
  induction m generalizing lo with
  | nil => exact readByte_cellOf_same rfl
  | cons e rest ih =>
    obtain ⟨a, b⟩ := e
    simp only [Memory.wfFrom, Bool.and_eq_true, decide_eq_true_eq] at h
    simp only [writeByte]
    split
    · exact readByte_cellOf_same (by simp [Memory.wfFrom, h.2]; omega)
    · split
      · rename_i hxa
        subst hxa
        exact readByte_cellOf_same h.2.2
      · rename_i hxa
        have : a ≠ x := fun e => hxa e.symm
        simp only [readByte, this, if_false]
        exact ih h.2.2

theorem readByte_writeByte_ne {x y : Nat} {v : Byte} {m : Memory} (h : x ≠ y) :
    readByte (writeByte m x v) y = readByte m y := by
  induction m with
  | nil => exact readByte_cellOf_ne h
  | cons e rest ih =>
    obtain ⟨a, b⟩ := e
    simp only [writeByte]
    split
    · exact readByte_cellOf_ne h
    · split
      · rename_i hxa
        subst hxa
        rw [readByte_cellOf_ne h]
        simp [readByte, h]
      · simp only [readByte]
        split
        · rfl
        · exact ih

/-- A store of `n` bytes at `a` leaves every byte outside `[a, a + n)` alone. -/
theorem readByte_memWrite_outside {m : Memory} {a n v x : Nat} (h : x < a ∨ a + n ≤ x) :
    readByte (memWrite m a n v) x = readByte m x := by
  induction n generalizing m a v with
  | zero => rfl
  | succ n ih =>
    rw [memWrite, ih (by omega), readByte_writeByte_ne (by omega)]

/-- A store of `n` bytes at `a` puts byte `i` of the value at `a + i` (20_memory.md R92). -/
theorem readByte_memWrite_inside {m : Memory} {a n v i : Nat} (hm : Memory.wf m = true) (hi : i < n) :
    readByte (memWrite m a n v) (a + i) = BitVec.ofNat 8 (v / 256 ^ i) := by
  induction n generalizing m a v i with
  | zero => omega
  | succ n ih =>
    rw [memWrite]
    cases i with
    | zero =>
      rw [readByte_memWrite_outside (by omega), Nat.add_zero, readByte_writeByte_same hm, Nat.pow_zero, Nat.div_one]
    | succ i =>
      have := ih (a := a + 1) (v := v / 256) (writeByte_wf hm a (BitVec.ofNat 8 v)) (by omega : i < n)
      rw [show a + (i + 1) = a + 1 + i from by omega, this, Nat.div_div_eq_div_mul, Nat.pow_succ, Nat.mul_comm]

/-- Reading back what was stored, at the same width (R92). -/
theorem memRead_memWrite_same {m : Memory} {a n v : Nat} (hm : Memory.wf m = true) :
    memRead (memWrite m a n v) a n = v % 256 ^ n := by
  induction n generalizing m a v with
  | zero => simp [memRead, Nat.mod_one]
  | succ n ih =>
    rw [memRead, memWrite, ih (writeByte_wf hm _ _), readByte_memWrite_outside (by omega), readByte_writeByte_same hm,
      BitVec.toNat_ofNat, Nat.pow_succ' (n := n) (m := 256), Nat.mod_mul]

theorem readByte_storeBytes_outside {m m' : Memory} {a n x : Nat} {v : Word} (hs : storeBytes m a n v = .ok m')
    (h : x < a ∨ a + n ≤ x) : readByte m' x = readByte m x := by
  unfold storeBytes at hs
  split at hs
  · cases hs; exact readByte_memWrite_outside h
  · cases hs

/-- A copy leaves every byte outside the destination alone. -/
theorem readByte_copyFrames_outside {m m' : Memory} {b n src dst x : Nat} (hc : copyFrames m b n src dst = .ok m')
    (h : x < dst ∨ dst + n * b ≤ x) : readByte m' x = readByte m x := by
  induction n generalizing m src dst with
  | zero => cases hc; rfl
  | succ n ih =>
    simp only [copyFrames] at hc
    split at hc
    · cases hc
    · split at hc
      · cases hc
      · rename_i hs
        rw [Nat.succ_mul] at h
        rw [ih hc (by omega), readByte_storeBytes_outside hs (by omega)]

/-- A copy inside the address space completes. -/
theorem copyFrames_completes (m : Memory) (b n src dst : Nat) (h1 : src + n * b ≤ addressCount) (h2 : dst + n * b ≤ addressCount) :
    ∃ m', copyFrames m b n src dst = .ok m' := by
  induction n generalizing m src dst with
  | zero => exact ⟨m, rfl⟩
  | succ n ih =>
    rw [Nat.succ_mul] at h1 h2
    simp only [copyFrames, loadBytes, storeBytes, if_pos (show src + b ≤ addressCount by omega),
      if_pos (show dst + b ≤ addressCount by omega)]
    exact ih _ _ _ (by omega) (by omega)

theorem bpf_pos (w : Width) : 0 < bpf w := by cases w <;> decide

end Sys2Proof.Machine
end

