-- ==== Sys2Proof/Laws/Ops.lean ====
section
/-! SUPPORT. One lemma per shared operation that says what it can do when it answers: the moves of other hardware, register
accesses, frame loads and stores, the wait of `SlaveCancel`; and what they do when nothing disturbs them. -/

namespace Sys2Proof.Machine

/-! Sequencing of procedures -/

@[simp] theorem res_ok_bind {α β : Type} (a : α) (f : α → Res β) : ((Except.ok a : Res α) >>= f) = f a := rfl

@[simp] theorem res_error_bind {α β : Type} (e : Stop) (f : α → Res β) : ((Except.error e : Res α) >>= f) = .error e := rfl

/-- A sequence of two procedures answers exactly when both do. -/
theorem res_bind_eq_ok {α β : Type} {x : Res α} {f : α → Res β} {r : β} :
    (x >>= f) = .ok r ↔ ∃ a, x = .ok a ∧ f a = .ok r := by
  cases x with
  | error e => simp
  | ok a => simp

@[simp] theorem outcome_ok (s : State) : outcome (.ok s) = .next s := rfl

/-- An instruction answers a next state exactly when its procedure answers that state. -/
@[simp] theorem outcome_eq_next {x : Res State} {t : State} : outcome x = .next t ↔ x = .ok t := by
  cases x with
  | ok s => simp [outcome]
  | error e => cases e <;> simp [outcome]

/-! What other hardware leaves alone -/

/-- The two states agree on everything but buffer memory, the discard word, the DMA channels, the peripherals, the trace, the inputs,
the raised events and the free-value counter. -/
structure SameBlock (s t : State) : Prop where
  params : t.params = s.params
  hostConfigs : t.hostConfigs = s.hostConfigs
  cfg : t.cfg = s.cfg
  drvInit : t.drvInit = s.drvInit
  syncBusyMask : t.syncBusyMask = s.syncBusyMask
  seqUsedHWUnits : t.seqUsedHWUnits = s.seqUsedHWUnits
  seqCache : t.seqCache = s.seqCache
  chan : t.chan = s.chan
  job : t.job = s.job
  seq : t.seq = s.seq
  unit : t.unit = s.unit
  dev : t.dev = s.dev

theorem SameBlock.refl (s : State) : SameBlock s s := by constructor <;> rfl

theorem SameBlock.trans {a b c : State} (h : SameBlock a b) (h' : SameBlock b c) : SameBlock a c := by
  constructor
  · exact h'.params.trans h.params
  · exact h'.hostConfigs.trans h.hostConfigs
  · exact h'.cfg.trans h.cfg
  · exact h'.drvInit.trans h.drvInit
  · exact h'.syncBusyMask.trans h.syncBusyMask
  · exact h'.seqUsedHWUnits.trans h.seqUsedHWUnits
  · exact h'.seqCache.trans h.seqCache
  · exact h'.chan.trans h.chan
  · exact h'.job.trans h.job
  · exact h'.seq.trans h.seq
  · exact h'.unit.trans h.unit
  · exact h'.dev.trans h.dev

theorem emit_sameBlock (s : State) (e : Entry) : SameBlock s (s.emit e) := by constructor <;> rfl

theorem pokeReg_sameBlock (s : State) (u : Nat) (w : RegWrite) : SameBlock s (s.pokeReg u w) := by constructor <;> rfl

theorem setDma_sameBlock (s : State) (ch : Nat) (d : DmaChan) : SameBlock s (s.setDma ch d) := by constructor <;> rfl

theorem setLpspi_sameBlock (s : State) (u : Nat) (p : Lpspi) : SameBlock s (s.setLpspi u p) := by constructor <;> rfl

theorem setMem_sameBlock (s : State) (m : Memory) : SameBlock s (s.setMem m) := by constructor <;> rfl

theorem popRx_sameBlock (s : State) (u : Nat) : SameBlock s (s.popRx u).2 := by
  unfold State.popRx
  split <;> constructor <;> rfl

theorem dmaCount_sameBlock (s : State) (u ch : Nat) (k : BitVec 4) : SameBlock s (s.dmaCount u ch k) := by
  simp only [State.dmaCount]
  split
  · split <;> constructor <;> rfl
  · constructor <;> rfl

theorem dmaPut_sameBlock (s : State) (u ch : Nat) (v : Word) : SameBlock s (dmaPut s u ch v) := by
  refine SameBlock.trans (b := ((s.pokeReg u (.txdata v)).emit (.dmaWrite u v)).setDma ch _) ?_ (dmaCount_sameBlock _ _ _ _)
  constructor <;> rfl

theorem dmaTaken_sameBlock (s : State) (u ch : Nat) : SameBlock s (dmaTaken s u ch) :=
  (setDma_sameBlock _ _ _).trans (dmaCount_sameBlock _ _ _ _)

theorem dmaTxMove_sameBlock {u : Nat} {s t : State} (h : dmaTxMove u s = .ok t) : SameBlock s t := by
  simp only [dmaTxMove] at h
  split at h
  · split at h
    · cases h; exact dmaPut_sameBlock _ _ _ _
    · split at h
      · cases h
      · split at h
        · cases h
        · cases h; exact dmaPut_sameBlock _ _ _ _
    · cases h; exact SameBlock.refl _
  · cases h; exact SameBlock.refl _

theorem dmaRxMove_sameBlock {u : Nat} {s t : State} (h : dmaRxMove u s = .ok t) : SameBlock s t := by
  simp only [dmaRxMove] at h
  split at h
  · split at h
    · cases h
      refine SameBlock.trans ?_ (dmaTaken_sameBlock _ _ _)
      refine (popRx_sameBlock s u).trans ?_
      constructor <;> rfl
    · split at h
      · cases h
      · split at h
        · cases h
        · cases h
          refine SameBlock.trans ?_ (dmaTaken_sameBlock _ _ _)
          refine (popRx_sameBlock s u).trans ?_
          constructor <;> rfl
    · cases h; exact SameBlock.refl _
  · cases h; exact SameBlock.refl _

/-- A move of other hardware, or of the host in buffer memory, leaves the block's own state alone (20_memory.md R111). -/
theorem agentMove_sameBlock {x : Stimulus} {s t : State} (hx : ∀ a c, x ≠ .hostConfig a c) (h : agentMove x s = .ok t) :
    SameBlock s t := by
  cases x with
  | port p => cases h; exact SameBlock.refl _
  | take u => cases h; exact setLpspi_sameBlock _ _ _
  | shift u v => cases h; exact setLpspi_sameBlock _ _ _
  | clockIn u v =>
    simp only [agentMove] at h
    split at h <;> cases h
    · exact setLpspi_sameBlock _ _ _
    · exact SameBlock.refl _
  | setBusy u b => cases h; exact setLpspi_sameBlock _ _ _
  | dmaTx u => exact dmaTxMove_sameBlock h
  | dmaRx u => exact dmaRxMove_sameBlock h
  | hwReset u => cases h; exact setLpspi_sameBlock _ _ _
  | hostStore a b => cases h; exact setMem_sameBlock _ _
  | hostConfig a c => exact absurd rfl (hx a c)

/-- What `pick` chooses is admissible. -/
theorem pick_admissible {adm : Stimulus → Bool} {l rest : List Arrival} {x : Stimulus} (h : pick adm l = (some x, rest)) :
    adm x = true := by
  induction l generalizing rest with
  | nil => simp [pick] at h
  | cons a l ih =>
    simp only [pick] at h
    split at h
    · simp at h
    · simp at h
    · split at h
      · rename_i hadm; simp only [Prod.mk.injEq, Option.some.injEq] at h; rw [← h.1]; exact hadm
      · simp only [Prod.mk.injEq] at h
        exact ih (rest := (pick adm l).2) (by rw [← h.1])

theorem isAgent_ne_hostConfig {x : Stimulus} (h : x.isAgent = true) : ∀ a c, x ≠ .hostConfig a c := by
  intro a c hx; subst hx; cases h

theorem agentMoves_sameBlock {n : Nat} {s t : State} (h : agentMoves n s = .ok t) : SameBlock s t := by
  induction n generalizing s with
  | zero => cases h; exact SameBlock.refl _
  | succ n ih =>
    simp only [agentMoves] at h
    split at h
    · cases h; constructor <;> rfl
    · rename_i x rest hp
      split at h
      · cases h
      · rename_i s' hm
        refine SameBlock.trans (b := s') ?_ (ih h)
        have := agentMove_sameBlock (isAgent_ne_hostConfig (pick_admissible hp)) hm
        exact ⟨this.params, this.hostConfigs, this.cfg, this.drvInit, this.syncBusyMask, this.seqUsedHWUnits, this.seqCache,
          this.chan, this.job, this.seq, this.unit, this.dev⟩

/-- Before a register access, other hardware may have moved; the block's own state is as it was (20_memory.md R111). -/
theorem agentPoint_sameBlock {s t : State} (h : agentPoint s = .ok t) : SameBlock s t := agentMoves_sameBlock h

/-! The shifter of a peripheral (10_state.md R68) -/

@[simp] theorem settle_of_idle {p : Lpspi} (h : p.shifting = none) (items : List TxItem) : Lpspi.settle items p = settleFrom items p := by
  simp [Lpspi.settle, h]

@[simp] theorem settle_of_shifting {p : Lpspi} {x : Word} (h : p.shifting = some x) (items : List TxItem) :
    Lpspi.settle items p = { p with txFifo := items } := by simp [Lpspi.settle, h]

/-- Command words that take effect leave everything but the shifter's command word, chip select and the FIFO alone. -/
theorem settleFrom_frame (items : List TxItem) (p : Lpspi) : ∃ c h l, settleFrom items p = { p with shiftCmd := c, csHeld := h, txFifo := l } ∧
    countFrames l = countFrames items := by
  induction items generalizing p with
  | nil => exact ⟨_, _, _, rfl, rfl⟩
  | cons a rest ih =>
    cases a with
    | frame v => exact ⟨_, _, _, rfl, rfl⟩
    | cmd c =>
      obtain ⟨c', h', l, hl, hc⟩ := ih { p with shiftCmd := c, csHeld := p.csHeld && c.cont }
      exact ⟨c', h', l, by simp [settleFrom, hl], hc⟩

theorem take_of_frame {p : Lpspi} {x : Word} {rest : List TxItem} (hs : p.shifting = none) (h : p.txFifo = .frame x :: rest) :
    p.take = { p with txFifo := rest, shifting := some x } := by simp [Lpspi.take, hs, h]

theorem take_of_shifting {p : Lpspi} {x : Word} (h : p.shifting = some x) : p.take = p := by simp [Lpspi.take, h]

/-- An answer lets one frame out and one in (P3), and no frame into or out of the transmit FIFO. -/
theorem answer_of_shifting {p : Lpspi} {x : Word} (h : p.shifting = some x) (v : Word) :
    (p.answer v).shifting = none ∧ (p.answer v).txCount = p.txCount ∧
    (p.answer v).rxFifo = p.rxFifo ++ [truncW p.shiftCmd.width v] ∧ (p.answer v).wire = p.wire ++ [(p.shiftCmd, x)] := by
  simp only [Lpspi.answer, h]
  obtain ⟨c, k, l, hl, hc⟩ := settleFrom_frame p.txFifo { p with
    shifting := none, rxFifo := p.rxFifo ++ [truncW p.shiftCmd.width v], wire := p.wire ++ [(p.shiftCmd, x)]
    csHeld := p.shiftCmd.cont }
  rw [hl]
  exact ⟨rfl, hc, rfl, rfl⟩

/-! Register accesses -/

/-- A register write (00_scope.md R12, R13): the moves of other hardware, then the write and its trace entry. -/
theorem regWrite_cases {u : Nat} {w : RegWrite} {s t : State} (h : regWrite u w s = .ok t) :
    ∃ m, agentPoint s = .ok m ∧ t = (m.pokeReg u w).emit (.regWrite u w) := by
  unfold regWrite at h
  split at h
  · cases h
  · rename_i m hm; cases h; exact ⟨m, hm, rfl⟩

theorem regWrite_sameBlock {u : Nat} {w : RegWrite} {s t : State} (h : regWrite u w s = .ok t) : SameBlock s t := by
  obtain ⟨m, hm, rfl⟩ := regWrite_cases h
  exact (agentPoint_sameBlock hm).trans ((pokeReg_sameBlock _ _ _).trans (emit_sameBlock _ _))

/-- A read of `FIFOSTAT`: the counts it returns are those in the state after the moves (30_encoding.md R152). -/
theorem readFifoStat_cases {u tc rc : Nat} {s t : State} (h : readFifoStat u s = .ok ((tc, rc), t)) :
    ∃ m, agentPoint s = .ok m ∧ tc = (m.lpspiAt u).txCount ∧ rc = (m.lpspiAt u).rxCount ∧
      t = m.emit (.regRead u (.fifostat tc rc)) := by
  unfold readFifoStat at h
  split at h
  · cases h
  · rename_i m hm; cases h; exact ⟨m, hm, rfl, rfl, rfl⟩

theorem readFifoStat_sameBlock {u : Nat} {r : Nat × Nat} {s t : State} (h : readFifoStat u s = .ok (r, t)) : SameBlock s t := by
  obtain ⟨m, hm, -, -, rfl⟩ := readFifoStat_cases (tc := r.1) (rc := r.2) h
  exact (agentPoint_sameBlock hm).trans (emit_sameBlock _ _)

/-- A read of `STAT` (R152). -/
theorem readStat_cases {u : Nat} {st : StatWord} {s t : State} (h : readStat u s = .ok (st, t)) :
    ∃ m, agentPoint s = .ok m ∧ st.tdf = (m.lpspiAt u).tdf ∧ st.rdf = (m.lpspiAt u).rdf ∧ st.mbf = (m.lpspiAt u).mbf ∧
      t = m.emit (.regRead u (.stat st.tdf st.rdf st.mbf)) := by
  unfold readStat at h
  split at h
  · cases h
  · rename_i m hm; cases h; exact ⟨m, hm, rfl, rfl, rfl, rfl⟩

theorem readStat_sameBlock {u : Nat} {r : StatWord} {s t : State} (h : readStat u s = .ok (r, t)) : SameBlock s t := by
  obtain ⟨m, hm, -, -, -, rfl⟩ := readStat_cases h
  exact (agentPoint_sameBlock hm).trans (emit_sameBlock _ _)

/-- A read of `RXDATA` removes the frame it returns (20_memory.md R101). -/
theorem readRxData_cases {u : Nat} {v : Word} {s t : State} (h : readRxData u s = .ok (v, t)) :
    ∃ m, agentPoint s = .ok m ∧ v = (m.popRx u).1 ∧ t = (m.popRx u).2.emit (.regRead u (.rxdata v)) := by
  unfold readRxData at h
  split at h
  · cases h
  · rename_i m hm; cases h; exact ⟨m, hm, rfl, rfl⟩

theorem readRxData_sameBlock {u : Nat} {v : Word} {s t : State} (h : readRxData u s = .ok (v, t)) : SameBlock s t := by
  obtain ⟨m, hm, -, rfl⟩ := readRxData_cases h
  exact (agentPoint_sameBlock hm).trans ((popRx_sameBlock _ _).trans (emit_sameBlock _ _))

/-! Counts -/

/-- A count up answers the next number, which 16 bits hold (00_scope.md R15). -/
@[simp] theorem countUp_eq_ok {n k : Nat} : countUp n = .ok k ↔ n < 65535 ∧ k = n + 1 := by
  unfold countUp
  split
  · rename_i h; simp [h, eq_comm]
  · rename_i h; simp [h]

/-- A count down answers the number before (R15). -/
@[simp] theorem countDown_eq_ok {n k : Nat} : countDown n = .ok k ↔ n = k + 1 := by
  cases n <;> simp [countDown, eq_comm]

/-- What `CS7` writes in a sequence (45_scheduler.md R345). -/
theorem finishOne_cases {e e' : SeqState} (h : e.finishOne = .ok e') :
    e.remainingJobs = e'.remainingJobs + 1 ∧
    ((e.result = .cancelled ∧ e' = { e with remainingJobs := e'.remainingJobs }) ∨
      (e.result ≠ .cancelled ∧ e'.remainingJobs = 0 ∧ e' = { e with remainingJobs := 0, result := .ok }) ∨
      (e.result ≠ .cancelled ∧ e'.remainingJobs ≠ 0 ∧ e.cursor < 65535 ∧
        e' = { e with remainingJobs := e'.remainingJobs, cursor := e.cursor + 1 })) := by
  obtain ⟨left, hl, h⟩ := res_bind_eq_ok.1 h
  rw [countDown_eq_ok] at hl
  split at h
  · cases h; exact ⟨hl, .inl ⟨‹_›, rfl⟩⟩
  · split at h
    · rename_i h0; cases h; subst h0; exact ⟨hl, .inr (.inl ⟨‹_›, rfl, rfl⟩)⟩
    · obtain ⟨k, hk, h⟩ := res_bind_eq_ok.1 h
      rw [countUp_eq_ok] at hk
      cases h
      obtain ⟨hk, rfl⟩ := hk
      exact ⟨hl, .inr (.inr ⟨‹_›, ‹_›, hk, rfl⟩)⟩

/-- The segment `CS7` (R345). -/
theorem finishJob_cases {j q : Nat} {s t : State} (h : finishJob j q s = .ok t) :
    ∃ e, (s.seqAt q).finishOne = .ok e ∧ t = (s.setJob j { s.jobAt j with owner := none, result := .ok }).setSeq q e := by
  obtain ⟨e, he, h⟩ := res_bind_eq_ok.1 h
  cases h; exact ⟨e, he, rfl⟩

/-- The cursors of a synchronous job (44_sync_transmit.md R306). -/
theorem setChanIdx_cases {u k : Nat} {s t : State} (h : setChanIdx u k s = .ok t) :
    k ≤ 65535 ∧ t = s.setDev u { s.devAt u with txChanIdx := k, rxChanIdx := k } := by
  unfold setChanIdx at h
  split at h
  · cases h; exact ⟨‹_›, rfl⟩
  · cases h

/-- `RxStoreFrame` (20_memory.md R95): the frame is dropped, or stored cut to the width. -/
theorem rxStoreFrame_cases {s t : State} {c i : Nat} {w : Width} {v : Word} (h : rxStoreFrame s c w i v = .ok t) :
    t = s ∨ ∃ p m, (s.chanAt c).discardRx = false ∧ (s.chanAt c).rxPtr = some p ∧ i < (s.chanAt c).length ∧
      storeBytes s.mem (frameAddr p w i) (bpf w) (truncW w v) = .ok m ∧ t = s.setMem m := by
  unfold rxStoreFrame at h
  split at h
  · cases h; exact .inl rfl
  · rename_i hd
    split at h
    · cases h; exact .inl rfl
    · rename_i p hp
      split at h
      · rename_i hi
        split at h
        · cases h
        · rename_i m hm
          cases h
          exact .inr ⟨p, m, by simpa using hd, hp, hi, hm, rfl⟩
      · cases h

theorem rxStoreFrame_sameBlock {s t : State} {c i : Nat} {w : Width} {v : Word} (h : rxStoreFrame s c w i v = .ok t) :
    SameBlock s t := by
  obtain rfl | ⟨_, _, _, _, _, _, rfl⟩ := rxStoreFrame_cases h
  · exact SameBlock.refl _
  · exact setMem_sameBlock _ _

/-- The wait of `SlaveCancel` changes the block's own state nowhere (46_cancel.md R379). -/
theorem waitNotBusy_sameBlock {u n : Nat} {s t : State} (h : waitNotBusy u n s = .ok t) : SameBlock s t := by
  induction n generalizing s with
  | zero => cases h
  | succ n ih =>
    simp only [waitNotBusy] at h
    split at h
    · cases h
    · rename_i st m hr
      split at h
      · exact (readStat_sameBlock hr).trans (ih h)
      · cases h; exact readStat_sameBlock hr

/-! Nothing disturbs -/

theorem undisturbed_nil {s : State} (h : s.inputs = []) : s.undisturbed = true := by simp [State.undisturbed, h]

theorem pick_undisturbed {s : State} (h : s.undisturbed = true) (adm : Stimulus → Bool) : pick adm s.inputs = (none, s.inputs) := by
  unfold State.undisturbed at h
  cases hi : s.inputs with
  | nil => rfl
  | cons a rest =>
    rw [hi] at h
    cases hw : a.wait with
    | none => simp [pick, hw]
    | some k => simp [hw] at h

theorem undisturbed_of_inputs {s t : State} (h : s.undisturbed = true) (ht : t.inputs = s.inputs) : t.undisturbed = true := by
  unfold State.undisturbed at h ⊢; rw [ht]; exact h

@[simp] theorem agentMoves_undisturbed {s : State} (h : s.undisturbed = true) (n : Nat) : agentMoves n s = .ok s := by
  cases n with
  | zero => rfl
  | succ n => simp only [agentMoves, pick_undisturbed h]

@[simp] theorem agentPoint_undisturbed {s : State} (h : s.undisturbed = true) : agentPoint s = .ok s :=
  agentMoves_undisturbed h _

/-- A boundary at which nothing is due does nothing (20_memory.md R111). -/
@[simp] theorem deliver_undisturbed {s : State} (h : s.undisturbed = true) (n : Nat) (ctx : Ctx) : deliver n ctx s = .ok s := by
  cases n with
  | zero => rfl
  | succ n => simp only [deliver, pick_undisturbed h]

/-! Whether anything is due depends on the inputs alone. -/

@[simp] theorem setChan_undisturbed (s : State) (c : Nat) (v : ChanState) : State.undisturbed (s.setChan c v) = s.undisturbed := rfl
@[simp] theorem setJob_undisturbed (s : State) (j : Nat) (v : JobState) : State.undisturbed (s.setJob j v) = s.undisturbed := rfl
@[simp] theorem setSeq_undisturbed (s : State) (q : Nat) (v : SeqState) : State.undisturbed (s.setSeq q v) = s.undisturbed := rfl
@[simp] theorem setUnit_undisturbed (s : State) (u : Nat) (v : UnitQ) : State.undisturbed (s.setUnit u v) = s.undisturbed := rfl
@[simp] theorem setDev_undisturbed (s : State) (u : Nat) (v : Dev) : State.undisturbed (s.setDev u v) = s.undisturbed := rfl
@[simp] theorem setLpspi_undisturbed (s : State) (u : Nat) (v : Lpspi) : State.undisturbed (s.setLpspi u v) = s.undisturbed := rfl
@[simp] theorem setDma_undisturbed (s : State) (ch : Nat) (v : DmaChan) : State.undisturbed (s.setDma ch v) = s.undisturbed := rfl
@[simp] theorem setMem_undisturbed (s : State) (m : Memory) : State.undisturbed (s.setMem m) = s.undisturbed := rfl
@[simp] theorem emit_undisturbed (s : State) (e : Entry) : State.undisturbed (s.emit e) = s.undisturbed := rfl
@[simp] theorem pokeReg_undisturbed (s : State) (u : Nat) (w : RegWrite) : State.undisturbed (s.pokeReg u w) = s.undisturbed := rfl
@[simp] theorem setJobResult_undisturbed (s : State) (j : Nat) (r : JobResult) : State.undisturbed (s.setJobResult j r) = s.undisturbed := rfl
@[simp] theorem setJobOwner_undisturbed (s : State) (j : Nat) (o : Option Nat) : State.undisturbed (s.setJobOwner j o) = s.undisturbed := rfl
@[simp] theorem setJobNext_undisturbed (s : State) (j : Nat) (o : Option Nat) : State.undisturbed (s.setJobNext j o) = s.undisturbed := rfl
@[simp] theorem setSeqResult_undisturbed (s : State) (q : Nat) (r : SeqResult) : State.undisturbed (s.setSeqResult q r) = s.undisturbed := rfl
@[simp] theorem setUnitStatus_undisturbed (s : State) (u : Nat) (st : Status) : State.undisturbed (s.setUnitStatus u st) = s.undisturbed := rfl
@[simp] theorem respond_undisturbed (s : State) (v : Word) : State.undisturbed (respond v s) = s.undisturbed := rfl

@[simp] theorem notify_undisturbed (s : State) (on : Bool) (k : NotifKind) (i : Nat) :
    State.undisturbed (notify on k i s) = s.undisturbed := by
  unfold notify; split <;> rfl

@[simp] theorem popRx_undisturbed (s : State) (u : Nat) : State.undisturbed (s.popRx u).2 = s.undisturbed := by
  unfold State.popRx; split <;> rfl

@[simp] theorem irqOff_undisturbed (s : State) (u : Nat) : State.undisturbed (irqOff u s) = s.undisturbed := by
  unfold irqOff; split <;> rfl

@[simp] theorem irqOn_undisturbed (s : State) (u : Nat) : State.undisturbed (irqOn u s) = s.undisturbed := rfl

theorem regWrite_undisturbed {s : State} (h : s.undisturbed = true) (u : Nat) (w : RegWrite) :
    regWrite u w s = .ok ((s.pokeReg u w).emit (.regWrite u w)) := by simp [regWrite, h]

theorem readFifoStat_undisturbed {s : State} (h : s.undisturbed = true) (u : Nat) :
    readFifoStat u s = .ok (((s.lpspiAt u).txCount, (s.lpspiAt u).rxCount),
      s.emit (.regRead u (.fifostat (s.lpspiAt u).txCount (s.lpspiAt u).rxCount))) := by simp [readFifoStat, h]

theorem readStat_undisturbed {s : State} (h : s.undisturbed = true) (u : Nat) :
    readStat u s = .ok ({ tdf := (s.lpspiAt u).tdf, rdf := (s.lpspiAt u).rdf, mbf := (s.lpspiAt u).mbf },
      s.emit (.regRead u (.stat (s.lpspiAt u).tdf (s.lpspiAt u).rdf (s.lpspiAt u).mbf))) := by simp [readStat, h]

theorem readRxData_undisturbed {s : State} (h : s.undisturbed = true) (u : Nat) :
    readRxData u s = .ok ((s.popRx u).1, (s.popRx u).2.emit (.regRead u (.rxdata (s.popRx u).1))) := by simp [readRxData, h]

end Sys2Proof.Machine
end

