-- ==== Sys2Proof/Laws/Counters.lean ====
section
/-! SUPPORT. The 16-bit counters (00_scope.md R15, R21): what `State.countersOk` says of each table entry, and what a procedure writes
in a counter. -/

namespace Sys2Proof.Machine

@[simp] theorem fits16_eq_true {n : Nat} : fits16 n = true ↔ n ≤ 65535 := by simp [fits16]

/-- `Dev.fits`, field by field. -/
theorem dev_fits_iff {d : Dev} : d.fits = true ↔
    d.txChanIdx ≤ 65535 ∧ d.rxChanIdx ≤ 65535 ∧ d.txRemaining ≤ 65535 ∧ d.rxRemaining ≤ 65535 ∧ d.remainingData ≤ 65535 ∧
      d.receivedData ≤ 65535 ∧ d.sentFrames ≤ 65535 := by simp [Dev.fits]

/-- `SeqState.fits`, field by field. -/
theorem seq_fits_iff {e : SeqState} : e.fits = true ↔ e.remainingJobs ≤ 65535 ∧ e.cursor ≤ 65535 := by simp [SeqState.fits]

theorem chan_fits_iff {c : ChanState} : c.fits = true ↔ c.length ≤ 65535 := by simp [ChanState.fits]

/-- A property of every entry of a table and of the default entry holds wherever the table is read. -/
theorem tget_of_all {α : Type} [Inhabited α] {p : α → Bool} {l : List α} (h : l.all p = true) (hd : p default = true) (i : Nat) :
    p (tget l i) = true := by
  by_cases hi : i < l.length
  · exact List.all_eq_true.1 h _ (tget_mem l i hi)
  · rw [tget_out l i (by omega)]; exact hd

/-- Writing an entry with a property keeps a table in which all entries have it. -/
theorem all_tset {α : Type} {p : α → Bool} {l : List α} {i : Nat} {v : α} (h : l.all p = true) (hv : p v = true) :
    (tset l i v).all p = true := by
  rw [List.all_eq_true] at h ⊢
  intro x hx
  rcases List.mem_or_eq_of_mem_set hx with hx | rfl
  · exact h x hx
  · exact hv

theorem countersOk_iff {s : State} : s.countersOk = true ↔
    s.chan.all ChanState.fits = true ∧ s.dev.all Dev.fits = true ∧ s.seq.all SeqState.fits = true ∧
      (s.cfg.channels.all fun c => fits16 c.maxLength) = true ∧ (s.cfg.seqs.all fun q => fits16 q.jobs.length) = true := by
  simp only [State.countersOk, Bool.and_eq_true]

theorem devFits {s : State} (h : s.countersOk = true) (u : Nat) : (s.devAt u).fits = true :=
  tget_of_all (countersOk_iff.1 h).2.1 rfl u

theorem chanFits {s : State} (h : s.countersOk = true) (c : Nat) : (s.chanAt c).length ≤ 65535 :=
  chan_fits_iff.1 (tget_of_all (countersOk_iff.1 h).1 rfl c)

theorem seqFits {s : State} (h : s.countersOk = true) (q : Nat) : (s.seqAt q).fits = true :=
  tget_of_all (countersOk_iff.1 h).2.2.1 rfl q

theorem maxLengthFits {s : State} (h : s.countersOk = true) (c : Nat) : (s.cfg.channelAt c).maxLength ≤ 65535 :=
  fits16_eq_true.1 (tget_of_all (p := fun c : ChannelCfg => fits16 c.maxLength) (countersOk_iff.1 h).2.2.2.1 rfl c)

theorem jobCountFits {s : State} (h : s.countersOk = true) (q : Nat) : (s.cfg.seqAt q).jobs.length ≤ 65535 :=
  fits16_eq_true.1 (tget_of_all (p := fun q : SeqCfg => fits16 q.jobs.length) (countersOk_iff.1 h).2.2.2.2 rfl q)

/-- States that agree on the block's own fields agree on its counters. -/
theorem SameBlock.countersOk {s t : State} (h : SameBlock s t) : t.countersOk = s.countersOk := by
  simp only [State.countersOk, h.chan, h.dev, h.seq, h.cfg]

theorem chunk_le (n : Nat) : chunk n ≤ n := Nat.min_le_left _ _

/-! What the engines write in `Dev[u]` -/

section
variable {s : State} {u : Nat}

theorem loadTx_fits (s : State) (u : Nat) {c : Nat} (h : s.countersOk = true) :
    Dev.fits { s.devAt u with txRemaining := (s.chanAt c).length, sentFrames := 0 } = true := by
  have hd := dev_fits_iff.1 (devFits h u)
  have hc := chanFits h c
  rw [dev_fits_iff]; simp only; omega

theorem loadRx_fits (s : State) (u : Nat) {c : Nat} (h : s.countersOk = true) :
    Dev.fits { s.devAt u with rxRemaining := (s.chanAt c).length } = true := by
  have hd := dev_fits_iff.1 (devFits h u)
  have hc := chanFits h c
  rw [dev_fits_iff]; simp only; omega

theorem txPasses_fits (s : State) (u : Nat) {c : Nat} (h : s.countersOk = true) :
    Dev.fits { s.devAt u with remainingData := (s.chanAt c).length - chunk (s.chanAt c).length, sentFrames := 0 } = true := by
  have hd := dev_fits_iff.1 (devFits h u)
  have hc := chanFits h c
  rw [dev_fits_iff]; simp only; omega

theorem rxPasses_fits (s : State) (u : Nat) {c : Nat} (h : s.countersOk = true) :
    Dev.fits { s.devAt u with receivedData := (s.chanAt c).length - chunk (s.chanAt c).length } = true := by
  have hd := dev_fits_iff.1 (devFits h u)
  have hc := chanFits h c
  rw [dev_fits_iff]; simp only; omega

theorem sentFrames_fits (s : State) (u c : Nat) (h : s.countersOk = true) :
    Dev.fits { s.devAt u with sentFrames := (s.chanAt c).length - (s.devAt u).remainingData } = true := by
  have hd := dev_fits_iff.1 (devFits h u)
  have hc := chanFits h c
  rw [dev_fits_iff]; simp only; omega

theorem remaining_fits {d : Dev} {n : Nat} (h : (s.setDev u d).countersOk = true) (hd : d.remainingData = (s.devAt u).remainingData)
    (hn : n ≤ (s.devAt u).remainingData) : Dev.fits { (s.setDev u d).devAt u with remainingData := n } = true := by
  have hf := dev_fits_iff.1 (devFits h u)
  have hr : ((s.setDev u d).devAt u).remainingData = (s.devAt u).remainingData := by
    by_cases hu : u < s.dev.length
    · rw [show (s.setDev u d).devAt u = d from tget_tset_same _ _ _ hu, hd]
    · rw [show (s.setDev u d).devAt u = s.devAt u from tget_tset_out _ _ _ _ (by omega)]
  rw [dev_fits_iff]; simp only; omega

theorem receivedData_fits (s : State) (u : Nat) (h : s.countersOk = true) :
    Dev.fits { s.devAt u with receivedData := (s.devAt u).receivedData - chunk (s.devAt u).receivedData } = true := by
  have hd := dev_fits_iff.1 (devFits h u)
  rw [dev_fits_iff]; simp only; omega

theorem chanIdx_fits {k : Nat} (hk : k ≤ 65535) (h : s.countersOk = true) :
    Dev.fits { s.devAt u with txChanIdx := k, rxChanIdx := k } = true := by
  have hd := dev_fits_iff.1 (devFits h u)
  rw [dev_fits_iff]; simp only; omega

theorem txChanIdx_fits {n k : Nat} (hk : countUp n = .ok k) (h : s.countersOk = true) :
    Dev.fits { s.devAt u with txChanIdx := k } = true := by
  have hd := dev_fits_iff.1 (devFits h u)
  rw [countUp_eq_ok] at hk
  rw [dev_fits_iff]; simp only; omega

theorem rxChanIdx_fits {n k : Nat} (hk : countUp n = .ok k) (h : s.countersOk = true) :
    Dev.fits { s.devAt u with rxChanIdx := k } = true := by
  have hd := dev_fits_iff.1 (devFits h u)
  rw [countUp_eq_ok] at hk
  rw [dev_fits_iff]; simp only; omega

theorem sent_fits {t : State} {left sent n : Nat} (hst : SameBlock s t) (hl : countDown (s.devAt u).txRemaining = .ok left)
    (hn : countUp n = .ok sent) (h : t.countersOk = true) :
    Dev.fits { t.devAt u with txRemaining := left, sentFrames := sent } = true := by
  have hd := dev_fits_iff.1 (devFits h u)
  have hs := dev_fits_iff.1 (devFits (hst.countersOk ▸ h) u)
  rw [countDown_eq_ok] at hl
  rw [countUp_eq_ok] at hn
  rw [dev_fits_iff]; simp only; omega

theorem received_fits {t : State} {left : Nat} (hst : SameBlock s t) (hl : countDown (s.devAt u).rxRemaining = .ok left)
    (h : t.countersOk = true) : Dev.fits { t.devAt u with rxRemaining := left } = true := by
  have hd := dev_fits_iff.1 (devFits h u)
  have hs := dev_fits_iff.1 (devFits (hst.countersOk ▸ h) u)
  rw [countDown_eq_ok] at hl
  rw [dev_fits_iff]; simp only; omega

end

/-- The length that an accepted `SETUP_EB` writes (40_lifecycle_buffers_queries.md R180). -/
theorem externalBuffers_fits {a0 a1 a2 : Word} {n : Nat} (h : lengthOk a2 n = true) (hn : n ≤ 65535) :
    (externalBuffers a0 a1 a2).fits = true := by
  simp only [lengthOk, Bool.and_eq_true, decide_eq_true_eq] at h
  exact chan_fits_iff.2 (Nat.le_trans h.2 hn)

/-- What `CS7` writes in a sequence keeps its two counts in 16 bits. -/
theorem finishOne_fits {e e' : SeqState} (h : e.finishOne = .ok e') (he : e.fits = true) : e'.fits = true := by
  rw [seq_fits_iff] at he ⊢
  obtain ⟨hl, ⟨-, h⟩ | ⟨-, -, h⟩ | ⟨-, -, hk, h⟩⟩ := finishOne_cases h <;> rw [h] <;> simp only <;> omega

end Sys2Proof.Machine
end

