-- ==== Sys2Proof/Laws/Closed.lean ====
section
/-! SUPPORT. Packaging of invariants: a predicate that the primitive updates keep is kept by every procedure, every instruction and
every step. -/

namespace Sys2Proof.Machine

/-- `P` is kept by every primitive update that procedures are made of; what they write in a counter, 16 bits hold (R15, R21). -/
structure Closed (P : State → Prop) : Prop where
  move : ∀ x s t, agentMove x s = .ok t → P s → P t
  inputs : ∀ s l, P s → P { s with inputs := l }
  raised : ∀ s l, P s → P { s with raised := l }
  emit : ∀ s e, P s → P (s.emit e)
  poke : ∀ s u w, P s → P (s.pokeReg u w)
  pop : ∀ s u, P s → P (s.popRx u).2
  soil : ∀ s u, P s → P (s.soilUnit u)
  setDma : ∀ s ch d, P s → P (s.setDma ch d)
  setDev : ∀ s u d, (s.countersOk = true → d.fits = true) → P s → P (s.setDev u d)
  setJob : ∀ s j v, P s → P (s.setJob j v)
  setSeq : ∀ s q v, (s.countersOk = true → v.fits = true) → P s → P (s.setSeq q v)
  setChan : ∀ s c v, (s.countersOk = true → v.fits = true) → P s → P (s.setChan c v)
  store : ∀ s t c w i v, rxStoreFrame s c w i v = .ok t → P s → P t
  copy : ∀ s m b n src dst, copyFrames s.mem b n src dst = .ok m → P s → P (s.setMem m)
  unitStatus : ∀ s u st, P s → P (s.setUnitStatus u st)
  enqueue : ∀ s j, P s → P (enqueue j s)
  popNext : ∀ s t u n, popNext u s = .ok (n, t) → P s → P t
  claim : ∀ s q, P s → P (claimSync q s)
  release : ∀ s q f, P s → P (releaseSync q f s)
  init : ∀ s t c, cfgWellFormed s.params c = true → initWith c s = .ok t → P s → P t
  deinit : ∀ s, P s → P { uninitUnits s with drvInit := false }

/-- `P` is kept by every primitive update of the hardware initialisation (40_lifecycle_buffers_queries.md R173). -/
structure HwClosed (P : State → Prop) : Prop where
  move : ∀ x s t, agentMove x s = .ok t → P s → P t
  inputs : ∀ s l, P s → P { s with inputs := l }
  emit : ∀ s e, P s → P (s.emit e)
  poke : ∀ s u w, P s → P (s.pokeReg u w)
  setDma : ∀ s ch d, P s → P (s.setDma ch d)
  setBase : ∀ s u b, P s → P (s.setDev u { s.devAt u with base := b })

/-- The hardware initialisation keeps `P`. -/
theorem HwClosed.lpspiInitAll {P : State → Prop} (hP : HwClosed P) {l : List Nat} {s t : State} (h : lpspiInitAll l s = .ok t)
    (hs : P s) : P t := by
  have hm : ∀ n (x y : State), agentMoves n x = .ok y → P x → P y := by
    intro n
    induction n with
    | zero => intro x y h hx; cases h; exact hx
    | succ n ih =>
      intro x y h hx
      simp only [agentMoves] at h
      split at h
      · cases h; exact hP.inputs _ _ hx
      · split at h
        · cases h
        · rename_i hm; exact ih _ _ h (hP.move _ _ _ hm (hP.inputs _ _ hx))
  induction l generalizing s with
  | nil => cases h; exact hs
  | cons u rest ih =>
    simp only [Machine.lpspiInitAll] at h
    split at h
    · cases h
    · rename_i m hi
      refine ih h ?_
      obtain ⟨k, hk, hi⟩ := res_bind_eq_ok.1 hi
      obtain ⟨n, hn, rfl⟩ := regWrite_cases hk
      have h1 := hP.emit _ (.regWrite u (.cspol (idlePolarity u s.cfg.jobs))) (hP.poke _ u (.cspol (idlePolarity u s.cfg.jobs))
        (hm _ _ _ hn (hP.setBase _ u (s.params.baseAt u) hs)))
      split at hi <;> cases hi
      · exact hP.emit _ _ (hP.setDma _ _ _ (hP.emit _ _ (hP.setDma _ _ _ h1)))
      · exact h1

/-- What a successful `INIT` does before its response, through a predicate that the hardware initialisation keeps. -/
theorem HwClosed.initWith {P : State → Prop} (hP : HwClosed P) {c : Cfg} {s t : State} (h : initWith c s = .ok t)
    (hs : P (initTables c s)) : ∃ m, P m ∧ t = { m with drvInit := true } := by
  obtain ⟨m, hm, h⟩ := res_bind_eq_ok.1 h
  cases h
  exact ⟨m, hP.lpspiInitAll hm hs, rfl⟩

/-- A boundary keeps `P`. -/
def KeepsAt (P : State → Prop) (b : Boundary) : Prop := ∀ ctx s t, b ctx s = .ok t → P s → P t

namespace Closed

variable {P : State → Prop} (hP : Closed P)
include hP

/-! Ports and operations -/

theorem agentMoves {n : Nat} {s t : State} (h : agentMoves n s = .ok t) (hs : P s) : P t := by
  induction n generalizing s with
  | zero => cases h; exact hs
  | succ n ih =>
    simp only [Machine.agentMoves] at h
    split at h
    · cases h; exact hP.inputs _ _ hs
    · split at h
      · cases h
      · rename_i hm; exact ih h (hP.move _ _ _ hm (hP.inputs _ _ hs))

theorem agentPoint {s t : State} (h : agentPoint s = .ok t) (hs : P s) : P t := hP.agentMoves h hs

theorem regWrite {u : Nat} {w : RegWrite} {s t : State} (h : regWrite u w s = .ok t) (hs : P s) : P t := by
  obtain ⟨m, hm, rfl⟩ := regWrite_cases h
  exact hP.emit _ _ (hP.poke _ _ _ (hP.agentPoint hm hs))

theorem readFifoStat {u : Nat} {r : Nat × Nat} {s t : State} (h : readFifoStat u s = .ok (r, t)) (hs : P s) : P t := by
  obtain ⟨m, hm, -, -, rfl⟩ := readFifoStat_cases (tc := r.1) (rc := r.2) h
  exact hP.emit _ _ (hP.agentPoint hm hs)

theorem readStat {u : Nat} {r : StatWord} {s t : State} (h : readStat u s = .ok (r, t)) (hs : P s) : P t := by
  obtain ⟨m, hm, -, -, -, rfl⟩ := readStat_cases h
  exact hP.emit _ _ (hP.agentPoint hm hs)

theorem readRxData {u : Nat} {v : Word} {s t : State} (h : readRxData u s = .ok (v, t)) (hs : P s) : P t := by
  obtain ⟨m, hm, -, rfl⟩ := readRxData_cases h
  exact hP.emit _ _ (hP.pop _ _ (hP.agentPoint hm hs))

theorem notify {s : State} {on : Bool} {k : NotifKind} {i : Nat} (hs : P s) : P (notify on k i s) := by
  unfold Machine.notify; split
  · exact hP.emit _ _ hs
  · exact hs

theorem respond {s : State} {v : Word} (hs : P s) : P (respond v s) := hP.emit _ _ hs

theorem raise {s : State} {op : Byte} {e : ErrName} (hs : P s) : P (raise op e s) := by
  unfold Machine.raise; split
  · exact hP.emit _ _ hs
  · exact hs

theorem fail {s : State} {op : Byte} {e : ErrName} {v : Word} (hs : P s) : P (fail op e v s) := hP.respond (hP.raise hs)

theorem reservedCommand {s : State} {op : Byte} (hs : P s) : P (reservedCommand op s) := hP.fail hs

theorem irqOn {s : State} {u : Nat} (hs : P s) : P (irqOn u s) := hP.emit _ _ (hP.setDev _ _ _ (fun h => devFits h _) hs)

theorem irqOff {s : State} {u : Nat} (hs : P s) : P (irqOff u s) := by
  unfold Machine.irqOff; split
  · exact hP.emit _ _ (hP.setDev _ _ _ (fun h => devFits h _) hs)
  · exact hs

theorem dmaBindTx {s : State} {ch u : Nat} (hs : P s) : P (dmaBindTx ch u s) := hP.emit _ _ (hP.setDma _ _ _ hs)
theorem dmaBindRx {s : State} {ch u : Nat} (hs : P s) : P (dmaBindRx ch u s) := hP.emit _ _ (hP.setDma _ _ _ hs)
theorem dmaCfg {s : State} {ch : Nat} {t : Tcd} (hs : P s) : P (dmaCfg ch t s) := hP.emit _ _ (hP.setDma _ _ _ hs)
theorem dmaSetIter {s : State} {ch n : Nat} (hs : P s) : P (dmaSetIter ch n s) := hP.emit _ _ (hP.setDma _ _ _ hs)
theorem dmaStart {s : State} {ch : Nat} (hs : P s) : P (dmaStart ch s) := hP.emit _ _ (hP.setDma _ _ _ hs)
theorem dmaStop {s : State} {ch : Nat} (hs : P s) : P (dmaStop ch s) := hP.emit _ _ (hP.setDma _ _ _ hs)
theorem dmaAck {s : State} {ch : Nat} (hs : P s) : P (dmaAck ch s) := hP.emit _ _ (hP.setDma _ _ _ hs)
theorem reload {s : State} {ch n : Nat} (hs : P s) : P (reload ch n s) := hP.dmaStart (hP.dmaSetIter hs)

omit hP in
theorem repeatN {f : State → Res State} (hf : ∀ s t, f s = .ok t → P s → P t) {n : Nat} {s t : State}
    (h : repeatN f n s = .ok t) (hs : P s) : P t := by
  induction n generalizing s with
  | zero => cases h; exact hs
  | succ n ih =>
    simp only [Machine.repeatN] at h
    split at h
    · cases h
    · rename_i hm; exact ih h (hf _ _ hm hs)

/-! The FIFO engine -/

theorem writeCmd {u : Nat} {c : CmdWord} {s t : State} (h : writeCmd u c s = .ok t) (hs : P s) : P t := by
  obtain ⟨m, hm, h⟩ := res_bind_eq_ok.1 h
  cases h; exact hP.setDev _ _ _ (fun h => devFits h _) (hP.regWrite hm hs)

theorem programChannel {u : Nat} {first : Bool} {a b : Nat} {f : Bool → CmdWord} {cs : Bool} {s t : State}
    (h : programChannel u first a b f cs s = .ok t) (hs : P s) : P t := by
  unfold Machine.programChannel at h
  split at h
  · obtain ⟨m, hm, h⟩ := res_bind_eq_ok.1 h
    obtain ⟨m2, hm2, h⟩ := res_bind_eq_ok.1 h
    cases h; exact hP.setDev _ _ _ (fun h => devFits h _) (hP.writeCmd hm2 (hP.regWrite hm hs))
  · simp only at h
    split at h
    · cases h; exact hs
    · exact hP.writeCmd h hs

theorem txChannelInit {u : Nat} {first : Bool} {s t : State} (h : txChannelInit u first s = .ok t) (hs : P s) : P t := by
  obtain ⟨j, -, h⟩ := res_bind_eq_ok.1 h
  simp only at h
  split at h
  · cases h
  · exact hP.programChannel h (hP.setDev _ _ _ (loadTx_fits _ _) hs)

theorem loadRxCounter {u c : Nat} {s t : State} (h : loadRxCounter u c s = .ok t) (hs : P s) : P t := by
  unfold Machine.loadRxCounter at h
  split at h
  · cases h
  · cases h; exact hP.setDev _ _ _ (loadRx_fits _ _) hs

theorem rxChannelInit {u : Nat} {s t : State} (h : rxChannelInit u s = .ok t) (hs : P s) : P t := by
  obtain ⟨j, -, h⟩ := res_bind_eq_ok.1 h
  exact hP.loadRxCounter h hs

theorem clearContCS {u : Nat} {s t : State} (h : clearContCS u s = .ok t) (hs : P s) : P t := by
  unfold Machine.clearContCS at h
  split at h
  · obtain ⟨m, hm, h⟩ := res_bind_eq_ok.1 h
    cases h; exact hP.setDev _ _ _ (fun h => devFits h _) (hP.writeCmd hm hs)
  · cases h; exact hs

theorem txChannelComplete {u : Nat} {s t : State} (h : txChannelComplete u s = .ok t) (hs : P s) : P t := by
  obtain ⟨j, -, h⟩ := res_bind_eq_ok.1 h
  split at h
  · obtain ⟨m, hm, h⟩ := res_bind_eq_ok.1 h
    cases h; exact hP.setDev _ _ _ (fun h => devFits h _) (hP.clearContCS hm hs)
  · obtain ⟨k, hk, h⟩ := res_bind_eq_ok.1 h
    exact hP.txChannelInit h (hP.setDev _ _ _ (txChanIdx_fits hk) hs)

theorem rxChannelComplete {u : Nat} {s t : State} (h : rxChannelComplete u s = .ok t) (hs : P s) : P t := by
  obtain ⟨j, -, h⟩ := res_bind_eq_ok.1 h
  split at h
  · cases h; exact hP.setDev _ _ _ (fun h => devFits h _) hs
  · obtain ⟨k, hk, h⟩ := res_bind_eq_ok.1 h
    exact hP.rxChannelInit h (hP.setDev _ _ _ (rxChanIdx_fits hk) hs)

theorem sendFrame {u c : Nat} {w : Width} {s t : State} (h : sendFrame u c w s = .ok t) (hs : P s) : P t := by
  obtain ⟨left, hl, h⟩ := res_bind_eq_ok.1 h
  obtain ⟨sent, hn, h⟩ := res_bind_eq_ok.1 h
  obtain ⟨v, -, h⟩ := res_bind_eq_ok.1 h
  obtain ⟨m, hm, h⟩ := res_bind_eq_ok.1 h
  cases h; exact hP.setDev _ _ _ (sent_fits (regWrite_sameBlock hm) hl hn) (hP.regWrite hm hs)

theorem receiveFrame {u c : Nat} {w : Width} {s t : State} (h : receiveFrame u c w s = .ok t) (hs : P s) : P t := by
  obtain ⟨left, hl, h⟩ := res_bind_eq_ok.1 h
  obtain ⟨⟨v, m⟩, hm, h⟩ := res_bind_eq_ok.1 h
  obtain ⟨m2, hm2, h⟩ := res_bind_eq_ok.1 h
  cases h
  exact hP.setDev _ _ _ (received_fits ((readRxData_sameBlock hm).trans (rxStoreFrame_sameBlock hm2)) hl)
    (hP.store _ _ _ _ _ _ hm2 (hP.readRxData hm hs))

theorem txWriteFrame {u : Nat} {s t : State} (h : txWriteFrame u s = .ok t) (hs : P s) : P t := by
  obtain ⟨j, -, h⟩ := res_bind_eq_ok.1 h
  obtain ⟨m, hm, h⟩ := res_bind_eq_ok.1 h
  split at h
  · exact hP.txChannelComplete h (hP.sendFrame hm hs)
  · cases h; exact hP.sendFrame hm hs

theorem rxReadFrame {u : Nat} {s t : State} (h : rxReadFrame u s = .ok t) (hs : P s) : P t := by
  obtain ⟨j, -, h⟩ := res_bind_eq_ok.1 h
  obtain ⟨m, hm, h⟩ := res_bind_eq_ok.1 h
  split at h
  · exact hP.rxChannelComplete h (hP.receiveFrame hm hs)
  · cases h; exact hP.receiveFrame hm hs

theorem fifoJobStart {u : Nat} {s t : State} (h : fifoJobStart u s = .ok t) (hs : P s) : P t := by
  obtain ⟨m, hm, h⟩ := res_bind_eq_ok.1 h
  obtain ⟨m2, hm2, h⟩ := res_bind_eq_ok.1 h
  obtain ⟨m3, hm3, h⟩ := res_bind_eq_ok.1 h
  have h3 := repeatN (fun _ _ => hP.txWriteFrame) hm3 (hP.rxChannelInit hm2 (hP.txChannelInit hm hs))
  split at h <;> cases h
  · exact hP.irqOn h3
  · exact h3

/-! The DMA engine -/

theorem txDmaChannelInit {u : Nat} {first : Bool} {s t : State} (h : txDmaChannelInit u first s = .ok t) (hs : P s) : P t := by
  obtain ⟨j, -, h⟩ := res_bind_eq_ok.1 h
  simp only at h
  split at h
  · cases h
  · obtain ⟨m, hm, h⟩ := res_bind_eq_ok.1 h
    cases h; exact hP.dmaStart (hP.dmaCfg (hP.programChannel hm (hP.setDev _ _ _ (txPasses_fits _ _) hs)))

theorem rxDmaChannelInit {u : Nat} {s t : State} (h : rxDmaChannelInit u s = .ok t) (hs : P s) : P t := by
  obtain ⟨j, -, h⟩ := res_bind_eq_ok.1 h
  simp only at h
  split at h
  · cases h
  · cases h; exact hP.dmaStart (hP.dmaCfg (hP.setDev _ _ _ (rxPasses_fits _ _) hs))

theorem dmaJobStart {u : Nat} {s t : State} (h : dmaJobStart u s = .ok t) (hs : P s) : P t := by
  obtain ⟨m, hm, h⟩ := res_bind_eq_ok.1 h
  exact hP.txDmaChannelInit h (hP.rxDmaChannelInit hm hs)

/-! The scheduler -/

theorem jobStart {j : Nat} {s t : State} (h : jobStart j s = .ok t) (hs : P s) : P t := by
  unfold Machine.jobStart at h
  split at h
  · cases h
  · obtain ⟨m, hm, h⟩ := res_bind_eq_ok.1 h
    have hm' : P (enterJob (s.unitOf j) j m) := hP.setDev _ _ _ (fun h => chanIdx_fits (Nat.zero_le _) h) (hP.regWrite hm (hP.notify hs))
    simp only at h
    split at h
    · exact hP.dmaJobStart h hm'
    · exact hP.fifoJobStart h hm'

theorem unlockAll {l : List Nat} {s : State} (hs : P s) : P (unlockAll l s) := by
  induction l generalizing s with
  | nil => exact hs
  | cons j rest ih => exact ih (hP.setJob _ _ _ hs)

theorem lockFrom {q : Nat} {locked l : List Nat} {s : State} (hs : P s) : P (lockFrom q locked l s).2 := by
  induction l generalizing s locked with
  | nil => exact hs
  | cons j rest ih =>
    unfold Machine.lockFrom
    split
    · exact hP.unlockAll hs
    · exact ih (hP.setJob _ _ _ hs)

theorem lockJobs {q : Nat} {s : State} (hs : P s) : P (lockJobs q s).2 := by
  unfold Machine.lockJobs
  split
  · exact hs
  · split
    · split
      · exact hs
      · exact hP.setJob _ _ _ hs
    · exact hP.lockFrom hs

theorem tryLock {ctx : Ctx} {q : Nat} {s : State} (hs : P s) : P (tryLock ctx q s).2 := by
  unfold Machine.tryLock
  split
  · exact hs
  · exact hP.lockJobs hs

theorem claimOrEnqueue {j : Nat} {s : State} (hs : P s) : P (claimOrEnqueue j s).2 := by
  unfold Machine.claimOrEnqueue
  split
  · exact hP.setJob _ _ _ (hP.unitStatus _ _ _ hs)
  · exact hP.enqueue _ _ hs

theorem unlockRemaining {q : Nat} {l : List Nat} {s : State} (hs : P s) : P (unlockRemaining q l s) := by
  induction l generalizing s with
  | nil => exact hs
  | cons j rest ih =>
    unfold Machine.unlockRemaining
    split
    · exact ih (hP.setJob _ _ _ hs)
    · exact ih hs

theorem finishJob {j q : Nat} {s t : State} (h : finishJob j q s = .ok t) (hs : P s) : P t := by
  obtain ⟨e, he, rfl⟩ := finishJob_cases h
  exact hP.setSeq _ _ _ (fun h => finishOne_fits he (seqFits (s := s) h _)) (hP.setJob _ _ _ hs)

theorem finishGuard {u : Nat} {s : State} (hs : P s) : P (finishGuard u s).2 := by
  unfold Machine.finishGuard
  split
  · exact hs
  · split
    · exact hP.setDev _ _ _ (fun h => devFits h _) (hP.irqOff hs)
    · exact hs

section
variable {b : Boundary} (hb : KeepsAt P b)
include hb

theorem jobTransfer {ctx : Ctx} {j : Nat} {s t : State} (h : jobTransfer b ctx j s = .ok t) (hs : P s) : P t := by
  obtain ⟨m, hm, h⟩ := res_bind_eq_ok.1 h
  exact hP.jobStart h (hb _ _ _ hm hs)

theorem scheduleJob {ctx : Ctx} {j : Nat} {s t : State} (h : scheduleJob b ctx j s = .ok t) (hs : P s) : P t := by
  obtain ⟨m, hm, h⟩ := res_bind_eq_ok.1 h
  have h2 := hP.claimOrEnqueue (j := j) (hb _ _ _ hm hs)
  split at h
  · rename_i heq; rw [heq] at h2; exact hP.jobTransfer hb h h2
  · rename_i heq; rw [heq] at h2; cases h; exact h2

theorem scheduleNextJob {ctx : Ctx} {u : Nat} {s t : State} (h : scheduleNextJob b ctx u s = .ok t) (hs : P s) : P t := by
  obtain ⟨m, hm, h⟩ := res_bind_eq_ok.1 h
  obtain ⟨⟨n, m2⟩, hm2, h⟩ := res_bind_eq_ok.1 h
  have h2 := hP.popNext _ _ _ _ hm2 (hb _ _ _ hm hs)
  cases n with
  | none => cases h; exact h2
  | some j => exact hP.jobTransfer hb h h2

theorem cancelCleanup {ctx : Ctx} {q : Nat} {s t : State} (h : cancelCleanup b ctx q s = .ok t) (hs : P s) : P t := by
  obtain ⟨m, hm, h⟩ := res_bind_eq_ok.1 h
  cases h; exact hP.notify (hP.unlockRemaining (hb _ _ _ hm hs))

theorem startOrScheduleNext {ctx : Ctx} {q u : Nat} {s t : State} (h : startOrScheduleNext b ctx q u s = .ok t)
    (hs : P s) : P t := by
  unfold Machine.startOrScheduleNext at h
  simp only at h
  split at h
  · obtain ⟨m, hm, h⟩ := res_bind_eq_ok.1 h
    exact hP.jobTransfer hb h (hP.setJob _ _ _ (hb _ _ _ hm hs))
  · obtain ⟨m, hm, h⟩ := res_bind_eq_ok.1 h
    exact hP.scheduleNextJob hb h (hP.scheduleJob hb hm hs)

theorem jobTransferFinished {ctx : Ctx} {j : Nat} {s t : State} (h : jobTransferFinished b ctx j s = .ok t) (hs : P s) : P t := by
  obtain ⟨m, hm, h⟩ := res_bind_eq_ok.1 h
  have h1 := hb _ _ _ hm hs
  split at h
  · cases h
  · obtain ⟨m1, hm1, h⟩ := res_bind_eq_ok.1 h
    obtain ⟨m2, hm2, h⟩ := res_bind_eq_ok.1 h
    have h2 := hb _ _ _ hm2 (hP.finishJob hm1 h1)
    split at h
    · obtain ⟨m3, hm3, h⟩ := res_bind_eq_ok.1 h
      exact hP.scheduleNextJob hb h (hP.cancelCleanup hb hm3 (hP.notify h2))
    · split at h
      · exact hP.scheduleNextJob hb h (hP.notify (hP.notify h2))
      · exact hP.startOrScheduleNext hb h (hP.notify h2)

theorem jobFinishGuarded {ctx : Ctx} {u : Nat} {s t : State} (h : jobFinishGuarded b ctx u s = .ok t) (hs : P s) : P t := by
  obtain ⟨m, hm, h⟩ := res_bind_eq_ok.1 h
  have h2 := hP.finishGuard (u := u) (hb _ _ _ hm hs)
  split at h
  · rename_i heq; rw [heq] at h2; cases h; exact h2
  · rename_i heq; rw [heq] at h2; exact hP.jobTransferFinished hb h h2

/-! The dispatch procedures -/

theorem finishIfDone {ctx : Ctx} {u : Nat} {s t : State} (h : finishIfDone b ctx u s = .ok t) (hs : P s) : P t := by
  unfold Machine.finishIfDone at h
  split at h
  · exact hP.jobFinishGuarded hb h hs
  · cases h; exact hs

omit hb in
theorem masterDispatch {u rc : Nat} {s t : State} (h : masterDispatch u rc s = .ok t) (hs : P s) : P t := by
  unfold Machine.masterDispatch at h
  split at h
  · obtain ⟨m, hm, h⟩ := res_bind_eq_ok.1 h
    split at h
    · exact hP.txWriteFrame h (hP.rxReadFrame hm hs)
    · cases h; exact hP.rxReadFrame hm hs
  · cases h; exact hs

omit hb in
theorem slaveDrain {u : Nat} {s t : State} (h : slaveDrain u s = .ok t) (hs : P s) : P t := by
  unfold Machine.slaveDrain at h
  split at h
  · exact hP.rxReadFrame h hs
  · obtain ⟨⟨v, m⟩, hm, h⟩ := res_bind_eq_ok.1 h
    cases h; exact hP.readRxData hm hs

omit hb in
theorem slaveDispatch {u tc rc : Nat} {s t : State} (h : slaveDispatch u tc rc s = .ok t) (hs : P s) : P t := by
  obtain ⟨j, -, h⟩ := res_bind_eq_ok.1 h
  obtain ⟨m, hm, h⟩ := res_bind_eq_ok.1 h
  have h1 := repeatN (fun _ _ => hP.slaveDrain) hm hs
  split at h
  · exact repeatN (fun _ _ => hP.txWriteFrame) h h1
  · cases h; exact h1

theorem isrFifoRx {ctx : Ctx} {u : Nat} {s t : State} (h : isrFifoRx b ctx u s = .ok t) (hs : P s) : P t := by
  obtain ⟨⟨r, m⟩, hm, h⟩ := res_bind_eq_ok.1 h
  obtain ⟨m2, hm2, h⟩ := res_bind_eq_ok.1 h
  refine hP.finishIfDone hb h ?_
  unfold fifoDispatch at hm2
  split at hm2
  · exact hP.slaveDispatch hm2 (hP.readFifoStat hm hs)
  · exact hP.masterDispatch hm2 (hP.readFifoStat hm hs)

omit hb in
theorem dmaTxDispatch {u : Nat} {s t : State} (h : dmaTxDispatch u s = .ok t) (hs : P s) : P t := by
  obtain ⟨j, -, h⟩ := res_bind_eq_ok.1 h
  simp only at h
  have h0 : P (Machine.dmaAck (s.cfg.unitAt u).dmaTxCh s) := hP.dmaAck hs
  generalize Machine.dmaAck (s.cfg.unitAt u).dmaTxCh s = m0 at h h0
  generalize (s.chanOf j (s.devAt u).txChanIdx) = c at h
  have h1 : P (m0.setDev u { m0.devAt u with sentFrames := (m0.chanAt c).length - (m0.devAt u).remainingData }) :=
    hP.setDev m0 u _ (sentFrames_fits _ _ _) h0
  split at h
  · cases h; exact hP.reload (hP.setDev _ _ _ (fun h => remaining_fits h rfl (Nat.sub_le _ _)) h1)
  · split at h
    · obtain ⟨k, hk, h⟩ := res_bind_eq_ok.1 h
      exact hP.txDmaChannelInit h (hP.setDev _ _ _ (txChanIdx_fits hk) h1)
    · obtain ⟨m, hm, h⟩ := res_bind_eq_ok.1 h
      cases h; exact hP.setDev _ _ _ (fun h => devFits h _) (hP.clearContCS hm h1)

theorem isrDmaTx {ctx : Ctx} {u : Nat} {s t : State} (h : isrDmaTx b ctx u s = .ok t) (hs : P s) : P t := by
  obtain ⟨m, hm, h⟩ := res_bind_eq_ok.1 h
  exact hP.finishIfDone hb h (hP.dmaTxDispatch hm hs)

omit hb in
theorem dmaRxDispatch {u : Nat} {s t : State} (h : dmaRxDispatch u s = .ok t) (hs : P s) : P t := by
  obtain ⟨j, -, h⟩ := res_bind_eq_ok.1 h
  simp only at h
  split at h
  · cases h; exact hP.reload (hP.setDev _ _ _ (receivedData_fits _ _) (hP.dmaAck hs))
  · split at h
    · obtain ⟨k, hk, h⟩ := res_bind_eq_ok.1 h
      exact hP.rxDmaChannelInit h (hP.setDev _ _ _ (rxChanIdx_fits hk) (hP.dmaAck hs))
    · cases h; exact hP.setDev _ _ _ (fun h => devFits h _) (hP.dmaAck hs)

theorem isrDmaRx {ctx : Ctx} {u : Nat} {s t : State} (h : isrDmaRx b ctx u s = .ok t) (hs : P s) : P t := by
  obtain ⟨m, hm, h⟩ := res_bind_eq_ok.1 h
  exact hP.finishIfDone hb h (hP.dmaRxDispatch hm hs)

theorem irqPollFifo {ctx : Ctx} {u : Nat} {s t : State} (h : irqPollFifo b ctx u s = .ok t) (hs : P s) : P t := by
  obtain ⟨⟨st, m⟩, hm, h⟩ := res_bind_eq_ok.1 h
  simp only at h
  split at h
  · exact hP.isrFifoRx hb h (hP.readStat hm hs)
  · cases h; exact hP.readStat hm hs

theorem irqPollDmaRx {ctx : Ctx} {u : Nat} {s t : State} (h : irqPollDmaRx b ctx u s = .ok t) (hs : P s) : P t := by
  unfold Machine.irqPollDmaRx at h
  split at h
  · split at h
    · rename_i heq; injection heq with h1 h2; subst h2; exact hP.isrDmaRx hb h (hP.emit _ _ hs)
    · rename_i heq; injection heq with h1 h2; subst h2; cases h; exact hP.emit _ _ hs
  · cases h; exact hs

theorem irqPollDma {ctx : Ctx} {u : Nat} {s t : State} (h : irqPollDma b ctx u s = .ok t) (hs : P s) : P t := by
  unfold Machine.irqPollDma at h
  split at h
  · rename_i heq; injection heq with h1 h2; subst h2
    obtain ⟨m, hm, h⟩ := res_bind_eq_ok.1 h
    obtain ⟨m2, hm2, h⟩ := res_bind_eq_ok.1 h
    exact hP.irqPollDmaRx hb h (hb _ _ _ hm2 (hP.isrDmaTx hb hm (hP.emit _ _ hs)))
  · rename_i heq; injection heq with h1 h2; subst h2
    exact hP.irqPollDmaRx hb h (hP.emit _ _ hs)

theorem irqPoll {ctx : Ctx} {u : Nat} {s t : State} (h : irqPoll b ctx u s = .ok t) (hs : P s) : P t := by
  unfold Machine.irqPoll at h
  split at h
  · exact hP.irqPollDma hb h hs
  · exact hP.irqPollFifo hb h hs

/-! The synchronous engines -/

omit hb in
theorem syncPass {u c : Nat} {w : Width} {l : Bool} {s t : State} (h : syncPass u c w l s = .ok t) (hs : P s) : P t := by
  obtain ⟨⟨r, m⟩, hm, h⟩ := res_bind_eq_ok.1 h
  obtain ⟨m2, hm2, h⟩ := res_bind_eq_ok.1 h
  have h0 := hP.readFifoStat hm hs
  have h1 : P m2 := by
    unfold syncSend at hm2
    split at hm2
    · obtain ⟨m3, hm3, hm2⟩ := res_bind_eq_ok.1 hm2
      split at hm2
      · exact hP.clearContCS hm2 (hP.sendFrame hm3 h0)
      · cases hm2; exact hP.sendFrame hm3 h0
    · cases hm2; exact h0
  unfold syncReceive at h
  split at h
  · exact hP.receiveFrame h h1
  · cases h; exact h1

theorem syncPasses {ctx : Ctx} {u c : Nat} {w : Width} {l : Bool} {n : Nat} {r : Option Nat} {s t : State}
    (h : syncPasses b ctx u c w l n s = .ok (r, t)) (hs : P s) : P t := by
  induction n generalizing s with
  | zero =>
    unfold Machine.syncPasses at h
    split at h
    · split at h
      · cases h
      · rename_i hm; cases h; exact hP.soil _ _ (hP.setDev _ _ _ (fun h => devFits h _) (hb _ _ _ hm hs))
    · cases h; exact hs
  | succ n ih =>
    unfold Machine.syncPasses at h
    split at h
    · split at h
      · cases h
      · rename_i hm
        split at h
        · cases h
        · rename_i hm2; exact ih h (hP.syncPass hm2 (hb _ _ _ hm hs))
    · cases h; exact hs

omit hb in
theorem setChanIdx {u k : Nat} {s t : State} (h : setChanIdx u k s = .ok t) (hs : P s) : P t := by
  obtain ⟨hk, rfl⟩ := setChanIdx_cases h
  exact hP.setDev _ _ _ (chanIdx_fits hk) hs

theorem syncChannels {ctx : Ctx} {u : Nat} {l : List Nat} {k n : Nat} {r : Option Nat} {s t : State}
    (h : syncChannels b ctx u l k n s = .ok (r, t)) (hs : P s) : P t := by
  induction l generalizing s k n with
  | nil => cases h; exact hs
  | cons c rest ih =>
    obtain ⟨m0, hm0, h⟩ := res_bind_eq_ok.1 h
    obtain ⟨m, hm, h⟩ := res_bind_eq_ok.1 h
    obtain ⟨m2, hm2, h⟩ := res_bind_eq_ok.1 h
    obtain ⟨⟨r3, m3⟩, hm3, h⟩ := res_bind_eq_ok.1 h
    have h3 := hP.syncPasses hb hm3 (hP.rxChannelInit hm2 (hP.txChannelInit hm (hP.setChanIdx hm0 hs)))
    cases r3 with
    | none => cases h; exact h3
    | some n => exact ih h h3

omit hb in
theorem syncJobEnd {u : Nat} {r : Option Nat × State} (hs : P r.2) : P (syncJobEnd u r).2 := by
  obtain ⟨r, s⟩ := r
  cases r with
  | none => exact hs
  | some n => exact hP.setDev _ _ _ (fun h => devFits h _) hs

theorem syncJobTransfer {ctx : Ctx} {j n : Nat} {r : Option Nat} {s t : State}
    (h : syncJobTransfer b ctx j n s = .ok (r, t)) (hs : P s) : P t := by
  obtain ⟨m, hm, h⟩ := res_bind_eq_ok.1 h
  split at h
  · cases h
  · obtain ⟨m2, hm2, h⟩ := res_bind_eq_ok.1 h
    obtain ⟨⟨r3, m3⟩, hm3, h⟩ := res_bind_eq_ok.1 h
    have h3 := hP.syncJobEnd (u := m.unitOf j) (r := (r3, m3))
      (hP.syncChannels hb hm3 (hP.setDev _ _ _ (fun h => devFits h _) (hP.regWrite hm2 (hb _ _ _ hm hs))))
    injection h with h
    rw [h] at h3
    exact h3

omit hb in
theorem syncResult {j : Nat} {r : JobResult} {s : State} (hs : P s) : P (syncResult j r s) := hP.notify (hP.setJob _ _ _ hs)

omit hb in
theorem syncJobBegin {j : Nat} {s : State} (hs : P s) : P (syncJobBegin j s) := hP.notify (hP.setJob _ _ _ hs)

theorem syncJobs {ctx : Ctx} {l : List Nat} {n r : Option Nat} {s t : State}
    (h : syncJobs b ctx l n s = .ok (r, t)) (hs : P s) : P t := by
  induction l generalizing s n with
  | nil => cases h; exact hs
  | cons j rest ih =>
    cases n with
    | none =>
      obtain ⟨m, hm, h⟩ := res_bind_eq_ok.1 h
      exact ih h (hP.syncResult (hb _ _ _ hm hs))
    | some n =>
      obtain ⟨m, hm, h⟩ := res_bind_eq_ok.1 h
      obtain ⟨⟨r2, m2⟩, hm2, h⟩ := res_bind_eq_ok.1 h
      obtain ⟨m3, hm3, h⟩ := res_bind_eq_ok.1 h
      exact ih h (hP.syncResult (hb _ _ _ hm3 (hP.syncJobTransfer hb hm2 (hP.syncJobBegin (hb _ _ _ hm hs)))))

omit hb in
theorem fastChannelInit {e : CacheEntry} {r : CacheChan} {first : Bool} {s t : State}
    (h : fastChannelInit e r first s = .ok t) (hs : P s) : P t := by
  unfold Machine.fastChannelInit at h
  split at h
  · cases h
  · obtain ⟨m, hm, h⟩ := res_bind_eq_ok.1 h
    exact hP.loadRxCounter h (hP.programChannel hm (hP.setDev _ _ _ (loadTx_fits _ _) hs))

theorem fastChannels {ctx : Ctx} {e : CacheEntry} {l : List CacheChan} {k n : Nat} {r : Option Nat} {s t : State}
    (h : fastChannels b ctx e l k n s = .ok (r, t)) (hs : P s) : P t := by
  induction l generalizing s k n with
  | nil => cases h; exact hs
  | cons c rest ih =>
    obtain ⟨m0, hm0, h⟩ := res_bind_eq_ok.1 h
    obtain ⟨m, hm, h⟩ := res_bind_eq_ok.1 h
    obtain ⟨⟨r3, m3⟩, hm3, h⟩ := res_bind_eq_ok.1 h
    have h3 := hP.syncPasses hb hm3 (hP.fastChannelInit hm (hP.setChanIdx hm0 hs))
    cases r3 with
    | none => cases h; exact h3
    | some n => exact ih h h3

theorem fastJobTransfer {ctx : Ctx} {e : CacheEntry} {n : Nat} {r : Option Nat} {s t : State}
    (h : fastJobTransfer b ctx e n s = .ok (r, t)) (hs : P s) : P t := by
  obtain ⟨m, hm, h⟩ := res_bind_eq_ok.1 h
  split at h
  · cases h
  · obtain ⟨m2, hm2, h⟩ := res_bind_eq_ok.1 h
    obtain ⟨⟨r3, m3⟩, hm3, h⟩ := res_bind_eq_ok.1 h
    have h3 := hP.syncJobEnd (u := e.unit) (r := (r3, m3))
      (hP.fastChannels hb hm3 (hP.setDev _ _ _ (fun h => devFits h _) (hP.regWrite hm2 (hb _ _ _ hm hs))))
    injection h with h
    rw [h] at h3
    exact h3

theorem syncSeqFast {ctx : Ctx} {e : CacheEntry} {n : Nat} {r : Option Nat} {s t : State}
    (h : syncSeqFast b ctx e n s = .ok (r, t)) (hs : P s) : P t := by
  obtain ⟨m, hm, h⟩ := res_bind_eq_ok.1 h
  obtain ⟨⟨r2, m2⟩, hm2, h⟩ := res_bind_eq_ok.1 h
  obtain ⟨m3, hm3, h⟩ := res_bind_eq_ok.1 h
  cases h
  exact hP.notify (hP.setJob _ _ _ (hb _ _ _ hm3 (hP.fastJobTransfer hb hm2 (hP.notify (hP.setJob _ _ _ (hb _ _ _ hm hs))))))

theorem syncTransfer {ctx : Ctx} {q n : Nat} {r : Option Nat} {s t : State}
    (h : syncTransfer b ctx q n s = .ok (r, t)) (hs : P s) : P t := by
  unfold Machine.syncTransfer at h
  split at h
  · exact hP.syncSeqFast hb h hs
  · exact hP.syncJobs hb h hs

/-! The commands -/

omit hb in
theorem cmdInit {a : Word} {s t : State} (h : cmdInit a s = .ok t) (hs : P s) : P t := by
  unfold Machine.cmdInit at h
  split at h
  · cases h; exact hP.fail hs
  · split at h
    · cases h; exact hP.fail hs
    · split at h
      · cases h; exact hP.fail hs
      · split at h
        · rename_i hwf
          obtain ⟨m, hm, h⟩ := res_bind_eq_ok.1 h
          cases h
          exact hP.respond (hP.init _ _ _ hwf hm hs)
        · cases h; exact hP.fail hs

omit hb in
theorem cmdDeinit {s t : State} (h : cmdDeinit s = .ok t) (hs : P s) : P t := by
  unfold Machine.cmdDeinit at h
  split at h
  · cases h; exact hP.fail hs
  · split at h <;> cases h
    · exact hP.respond hs
    · exact hP.respond (hP.deinit _ hs)

omit hb in
theorem cmdWriteIb {c : Nat} {a : Word} {s t : State} (h : cmdWriteIb c a s = .ok t) (hs : P s) : P t := by
  unfold Machine.cmdWriteIb at h
  split at h
  · cases h; exact hP.fail hs
  · split at h
    · cases h; exact hP.fail hs
    · split at h
      · cases h; exact hP.fail hs
      · split at h
        · cases h; exact hP.respond hs
        · split at h
          · cases h; exact hP.respond (hP.setChan _ _ _ (fun h => chan_fits_iff.2 (chanFits h _)) hs)
          · split at h
            · cases h; exact hP.fail hs
            · obtain ⟨m, hm, h⟩ := res_bind_eq_ok.1 h
              cases h
              unfold fillInternal at hm
              simp only at hm
              split at hm
              · cases hm
              · split at hm
                · cases hm
                · rename_i hc; cases hm; exact hP.respond (hP.setChan _ _ _ (fun h => chan_fits_iff.2 (chanFits h _)) (hP.copy _ _ _ _ _ _ hc hs))

omit hb in
theorem cmdReadIb {c : Nat} {a : Word} {s t : State} (h : cmdReadIb c a s = .ok t) (hs : P s) : P t := by
  unfold Machine.cmdReadIb at h
  split at h
  · cases h; exact hP.fail hs
  · split at h
    · cases h; exact hP.fail hs
    · split at h
      · cases h; exact hP.fail hs
      · split at h
        · cases h; exact hP.fail hs
        · split at h
          · cases h
          · rename_i hc; cases h; exact hP.respond (hP.copy _ _ _ _ _ _ hc hs)

omit hb in
theorem cmdSetupEb {c : Nat} {a0 a1 a2 : Word} {s t : State} (h : cmdSetupEb c a0 a1 a2 s = .ok t) (hs : P s) : P t := by
  unfold Machine.cmdSetupEb at h
  split at h
  · cases h; exact hP.fail hs
  · split at h
    · cases h; exact hP.fail hs
    · split at h
      · cases h; exact hP.fail hs
      · split at h
        · cases h; exact hP.fail hs
        · rename_i hl
          split at h
          · cases h; exact hP.fail hs
          · split at h <;> cases h
            · exact hP.respond hs
            · exact hP.respond (hP.setChan _ _ _ (fun h => externalBuffers_fits (by simpa using hl) (maxLengthFits h c)) hs)

omit hb in
theorem cmdGetJobResult {j : Nat} {s t : State} (h : cmdGetJobResult j s = .ok t) (hs : P s) : P t := by
  unfold Machine.cmdGetJobResult at h
  split at h
  · cases h; exact hP.fail hs
  · split at h <;> cases h
    · exact hP.fail hs
    · exact hP.respond hs

omit hb in
theorem cmdGetSeqResult {q : Nat} {s t : State} (h : cmdGetSeqResult q s = .ok t) (hs : P s) : P t := by
  unfold Machine.cmdGetSeqResult at h
  split at h
  · cases h; exact hP.fail hs
  · split at h <;> cases h
    · exact hP.fail hs
    · exact hP.respond hs

omit hb in
theorem cmdGetHwunitStatus {u : Nat} {s t : State} (h : cmdGetHwunitStatus u s = .ok t) (hs : P s) : P t := by
  unfold Machine.cmdGetHwunitStatus at h
  split at h
  · cases h; exact hP.fail hs
  · split at h
    · cases h; exact hP.fail hs
    · split at h <;> cases h <;> exact hP.respond hs

omit hb in
theorem setModes {m : Mode} {l : List Nat} {s : State} (hs : P s) : P (setModes m l s) := by
  induction l generalizing s with
  | nil => exact hs
  | cons u rest ih =>
    unfold Machine.setModes
    split
    · exact ih hs
    · exact ih (hP.setDev _ _ _ (fun h => devFits h _) hs)

omit hb in
theorem cmdSetAsyncMode {m : Mode} {s t : State} (h : cmdSetAsyncMode m s = .ok t) (hs : P s) : P t := by
  unfold Machine.cmdSetAsyncMode at h
  split at h
  · cases h; exact hP.fail hs
  · split at h
    · cases h; exact hP.fail hs
    · split at h <;> cases h
      · exact hP.respond hs
      · exact hP.respond (hP.setModes hs)

omit hb in
theorem cmdSetHwunitAsyncMode {u : Nat} {m : Mode} {s t : State} (h : cmdSetHwunitAsyncMode u m s = .ok t) (hs : P s) : P t := by
  unfold Machine.cmdSetHwunitAsyncMode at h
  split at h
  · cases h; exact hP.fail hs
  · split at h
    · cases h; exact hP.fail hs
    · split at h
      · cases h; exact hP.fail hs
      · split at h <;> cases h
        · exact hP.respond hs
        · exact hP.respond (hP.setDev _ _ _ (fun h => devFits h _) hs)

theorem pollUnits {ctx : Ctx} {l : List Nat} {s t : State} (h : pollUnits b ctx l s = .ok t) (hs : P s) : P t := by
  induction l generalizing s with
  | nil => cases h; exact hs
  | cons u rest ih =>
    obtain ⟨m, hm, h⟩ := res_bind_eq_ok.1 h
    obtain ⟨m2, hm2, h⟩ := res_bind_eq_ok.1 h
    refine ih h ?_
    unfold pollUnit at hm2
    split at hm2
    · exact hP.irqPoll hb hm2 (hb _ _ _ hm hs)
    · cases hm2; exact hb _ _ _ hm hs

theorem cmdMainFunctionHandling {ctx : Ctx} {s t : State} (h : cmdMainFunctionHandling b ctx s = .ok t) (hs : P s) : P t := by
  unfold Machine.cmdMainFunctionHandling at h
  split at h
  · cases h; exact hP.fail hs
  · split at h
    · cases h; exact hP.respond hs
    · obtain ⟨m, hm, h⟩ := res_bind_eq_ok.1 h
      cases h; exact hP.respond (hP.pollUnits hb hm hs)

omit hb in
theorem syncFinish {q : Nat} {f : Bool} {s : State} (hs : P s) : P (syncFinish q f s) := by
  unfold Machine.syncFinish reportDemTimeout
  refine hP.respond (hP.notify ?_)
  split
  · split
    · exact hP.emit _ _ hs
    · exact hs
  · exact hs

theorem cmdSyncTransmit {ctx : Ctx} {q : Nat} {s t : State} (h : cmdSyncTransmit b ctx q s = .ok t) (hs : P s) : P t := by
  unfold Machine.cmdSyncTransmit at h
  split at h
  · cases h; exact hP.fail hs
  · split at h
    · cases h; exact hP.fail hs
    · split at h
      · cases h; exact hP.fail hs
      · split at h
        · cases h; exact hP.fail hs
        · obtain ⟨m, hm, h⟩ := res_bind_eq_ok.1 h
          have h1 := hb _ _ _ hm hs
          split at h
          · cases h; exact hP.fail h1
          · obtain ⟨⟨r, m2⟩, hm2, h⟩ := res_bind_eq_ok.1 h
            obtain ⟨m3, hm3, h⟩ := res_bind_eq_ok.1 h
            obtain ⟨m4, hm4, h⟩ := res_bind_eq_ok.1 h
            cases h
            exact hP.syncFinish (hb _ _ _ hm4 (hP.release _ _ _ (hb _ _ _ hm3 (hP.syncTransfer hb hm2 (hP.claim _ _ h1)))))

omit hb in
theorem queueAll {l : List Nat} {s : State} (hs : P s) : P (queueAll l s) := by
  induction l generalizing s with
  | nil => exact hs
  | cons j rest ih => exact ih (hP.setJob _ _ _ hs)

theorem cmdAsyncTransmit {ctx : Ctx} {q : Nat} {s t : State} (h : cmdAsyncTransmit b ctx q s = .ok t) (hs : P s) : P t := by
  unfold Machine.cmdAsyncTransmit at h
  split at h
  · cases h; exact hP.fail hs
  · split at h
    · cases h; exact hP.fail hs
    · split at h
      · cases h; exact hP.fail hs
      · split at h
        · cases h; exact hP.fail hs
        · obtain ⟨m, hm, h⟩ := res_bind_eq_ok.1 h
          have h1 := hP.tryLock (ctx := ctx) (q := q) (hb _ _ _ hm hs)
          split at h
          · rename_i heq; rw [heq] at h1; cases h; exact hP.fail h1
          · rename_i heq; rw [heq] at h1
            obtain ⟨m2, hm2, h⟩ := res_bind_eq_ok.1 h
            obtain ⟨m3, hm3, h⟩ := res_bind_eq_ok.1 h
            cases h
            exact hP.respond (hP.scheduleJob hb hm3 (hP.queueAll (hP.setSeq _ _ _ (fun h => seq_fits_iff.2 ⟨jobCountFits h _, Nat.zero_le _⟩) (hb _ _ _ hm2 h1))))

omit hb in
theorem waitNotBusy {u n : Nat} {s t : State} (h : waitNotBusy u n s = .ok t) (hs : P s) : P t := by
  induction n generalizing s with
  | zero => cases h
  | succ n ih =>
    simp only [Machine.waitNotBusy] at h
    split at h
    · cases h
    · rename_i hr
      split at h
      · exact ih h (hP.readStat hr hs)
      · cases h; exact hP.readStat hr hs

omit hb in
theorem slaveStop {u : Nat} {s t : State} (h : slaveStop u s = .ok t) (hs : P s) : P t := by
  obtain ⟨m, hm, h⟩ := res_bind_eq_ok.1 h
  obtain ⟨m2, hm2, h⟩ := res_bind_eq_ok.1 h
  cases h
  refine hP.setDev _ _ _ (fun h => devFits h _) (hP.regWrite hm2 (hP.waitNotBusy hm ?_))
  split
  · exact hP.dmaStop (hP.dmaStop (hP.irqOff hs))
  · exact hP.irqOff hs

theorem slaveCancel {ctx : Ctx} {u j : Nat} {s t : State} (h : slaveCancel b ctx u j s = .ok t) (hs : P s) : P t := by
  obtain ⟨m, hm, h⟩ := res_bind_eq_ok.1 h
  have h1 := hb _ _ _ hm hs
  split at h
  · obtain ⟨m2, hm2, h⟩ := res_bind_eq_ok.1 h
    exact hP.jobTransferFinished hb h (hP.slaveStop hm2 h1)
  · cases h; exact h1

theorem cmdCancel {ctx : Ctx} {q : Nat} {s t : State} (h : cmdCancel b ctx q s = .ok t) (hs : P s) : P t := by
  unfold Machine.cmdCancel at h
  split at h
  · cases h; exact hP.fail hs
  · split at h
    · cases h; exact hP.fail hs
    · split at h
      · cases h; exact hP.fail hs
      · split at h
        · cases h; exact hP.respond hs
        · split at h
          · obtain ⟨m, hm, h⟩ := res_bind_eq_ok.1 h
            cases h; exact hP.respond (hP.slaveCancel hb hm (hP.setSeq _ _ _ (fun h => seqFits h _) hs))
          · cases h; exact hP.respond (hP.setSeq _ _ _ (fun h => seqFits h _) hs)

theorem handleFifo {ctx : Ctx} {u : Nat} {s t : State} (h : handleFifo b ctx u s = .ok t) (hs : P s) : P t := by
  unfold Machine.handleFifo at h
  split at h
  · exact hP.isrFifoRx hb h hs
  · cases h; exact hs

theorem handleDmaTx {ctx : Ctx} {u : Nat} {s t : State} (h : handleDmaTx b ctx u s = .ok t) (hs : P s) : P t := by
  unfold Machine.handleDmaTx at h
  split at h
  · exact hP.isrDmaTx hb h hs
  · cases h; exact hs

theorem handleDmaRx {ctx : Ctx} {u : Nat} {s t : State} (h : handleDmaRx b ctx u s = .ok t) (hs : P s) : P t := by
  unfold Machine.handleDmaRx at h
  split at h
  · exact hP.isrDmaRx hb h hs
  · cases h; exact hs

/-- Every instruction's procedure keeps `P` when its boundary does. -/
theorem runInstr {ctx : Ctx} {i : Instr} {s t : State} (h : runInstr b ctx i s = .ok t) (hs : P s) : P t := by
  cases i with
  | init a0 => exact hP.cmdInit h hs
  | deinit => exact hP.cmdDeinit h hs
  | writeIb c a0 => exact hP.cmdWriteIb h hs
  | readIb c a0 => exact hP.cmdReadIb h hs
  | setupEb c a0 a1 a2 => exact hP.cmdSetupEb h hs
  | syncTransmit q => exact hP.cmdSyncTransmit hb h hs
  | asyncTransmit q => exact hP.cmdAsyncTransmit hb h hs
  | cancel q => exact hP.cmdCancel hb h hs
  | getJobResult j => exact hP.cmdGetJobResult h hs
  | getSeqResult q => exact hP.cmdGetSeqResult h hs
  | getStatus => cases h; exact hP.respond hs
  | getHwunitStatus u => exact hP.cmdGetHwunitStatus h hs
  | setAsyncMode m => exact hP.cmdSetAsyncMode h hs
  | setHwunitAsyncMode u m => exact hP.cmdSetHwunitAsyncMode h hs
  | mainFunctionHandling => exact hP.cmdMainFunctionHandling hb h hs
  | evFifo u => exact hP.handleFifo hb h hs
  | evDmaTx u => exact hP.handleDmaTx hb h hs
  | evDmaRx u => exact hP.handleDmaRx hb h hs

end

theorem takeWord {s : State} {p : PortWords} (hs : P s) : P (s.takeWord p) := by
  cases p with
  | command => exact hs
  | event e => exact hP.raised _ _ hs

theorem reservedWord {s : State} {p : PortWords} (hs : P s) : P (reservedWord p s) := by
  cases p with
  | command => exact hP.fail hs
  | event e => exact hs

theorem runStimulus {b : Boundary} (hb : KeepsAt P b) {ctx : Ctx} {x : Stimulus} {s t : State}
    (h : runStimulus b ctx x s = .ok t) (hs : P s) : P t := by
  unfold Machine.runStimulus at h
  split at h
  · split at h
    · exact hP.runInstr hb h (hP.takeWord hs)
    · cases h; exact hP.reservedWord (hP.takeWord hs)
  · exact hP.move _ _ _ h hs

/-- Every boundary keeps `P`, whatever it delivers and however deep (20_memory.md R110 to R113). -/
theorem deliver (n : Nat) : KeepsAt P (deliver n) := by
  induction n with
  | zero => intro ctx s t h hs; cases h; exact hs
  | succ n ih =>
    intro ctx s t h hs
    simp only [Machine.deliver] at h
    split at h
    · cases h; exact hP.inputs _ _ hs
    · split at h
      · cases h
      · rename_i hr; exact ih _ _ _ h (hP.runStimulus ih hr (hP.inputs _ _ hs))

/-- Every instruction keeps `P`. -/
theorem exec {i : Instr} {s t : State} (h : exec i s = .next t) (hs : P s) : P t := by
  have hb : KeepsAt P s.boundary := hP.deliver _
  have : Machine.exec i s = outcome (Machine.runInstr s.boundary Ctx.foreground i s) := by cases i <;> rfl
  rw [this, outcome_eq_next] at h
  exact hP.runInstr hb h hs

/-- Every step keeps `P`. -/
theorem step {s t : State} (h : step s = .next t) (hs : P s) : P t := by
  have hn : ∀ x s', nextStimulus s = some (x, s') → P s' := by
    intro x s' hx
    unfold nextStimulus at hx
    split at hx
    · cases hx; exact hP.inputs _ _ hs
    · split at hx
      · cases hx; exact hs
      · cases hx
  unfold Machine.step at h
  split at h
  · cases h; exact hs
  · rename_i hx
    split at h
    · exact hP.exec h (hP.takeWord (hn _ _ hx))
    · cases h; exact hP.reservedWord (hP.takeWord (hn _ _ hx))
  · rename_i hx
    rw [outcome_eq_next] at h
    exact hP.move _ _ _ h (hn _ _ hx)

end Closed

/-- The meaning of an instruction is its procedure, run in the foreground with the state's own boundary. -/
theorem exec_eq_runInstr (i : Instr) (s : State) : exec i s = outcome (runInstr s.boundary Ctx.foreground i s) := by
  cases i <;> rfl

end Sys2Proof.Machine
end

