-- ==== Sys2Proof/Laws/Decode.lean ====
section
/-! SUPPORT. The fields of an encoded word: reading a field of `commandWord` or `eventWord` gives what was put there. -/

namespace Sys2Proof.Laws

open Sys2Proof

theorem commandWord_toNat (op : Byte) (m : BitVec 1) (id : BitVec 16) :
    (commandWord op m id).toNat = op.toNat * 16777216 + m.toNat * 65536 + id.toNat := by
  have h1 := op.isLt
  have h2 := m.isLt
  have h3 := id.isLt
  unfold commandWord
  rw [BitVec.toNat_ofNat, Nat.mod_eq_of_lt]
  omega

theorem eventWord_toNat (k u : BitVec 4) : (eventWord k u).toNat = k.toNat * 16 + u.toNat := by
  have h1 := k.isLt
  have h2 := u.isLt
  unfold eventWord
  rw [BitVec.toNat_ofNat, Nat.mod_eq_of_lt]
  omega

@[simp] theorem opField_commandWord (op : Byte) (m : BitVec 1) (id : BitVec 16) : opField (commandWord op m id) = op := by
  have h := commandWord_toNat op m id
  generalize commandWord op m id = w at h
  have h1 := op.isLt
  have h2 := m.isLt
  have h3 := id.isLt
  apply BitVec.eq_of_toNat_eq
  unfold opField
  rw [BitVec.extractLsb'_toNat, Nat.shiftRight_eq_div_pow, h]
  omega

@[simp] theorem zField_commandWord (op : Byte) (m : BitVec 1) (id : BitVec 16) : zField (commandWord op m id) = 0 := by
  have h := commandWord_toNat op m id
  generalize commandWord op m id = w at h
  have h1 := op.isLt
  have h2 := m.isLt
  have h3 := id.isLt
  apply BitVec.eq_of_toNat_eq
  unfold zField
  rw [BitVec.extractLsb'_toNat, Nat.shiftRight_eq_div_pow, h]
  simp only [BitVec.ofNat_eq_ofNat, BitVec.toNat_ofNat]
  omega

@[simp] theorem modeField_commandWord (op : Byte) (m : BitVec 1) (id : BitVec 16) : modeField (commandWord op m id) = m := by
  have h := commandWord_toNat op m id
  generalize commandWord op m id = w at h
  have h1 := op.isLt
  have h2 := m.isLt
  have h3 := id.isLt
  apply BitVec.eq_of_toNat_eq
  unfold modeField
  rw [BitVec.extractLsb'_toNat, Nat.shiftRight_eq_div_pow, h]
  omega

@[simp] theorem idField_commandWord (op : Byte) (m : BitVec 1) (id : BitVec 16) : idField (commandWord op m id) = id := by
  have h := commandWord_toNat op m id
  generalize commandWord op m id = w at h
  have h1 := op.isLt
  have h2 := m.isLt
  have h3 := id.isLt
  apply BitVec.eq_of_toNat_eq
  unfold idField
  rw [BitVec.extractLsb'_toNat, Nat.shiftRight_eq_div_pow, h]
  omega

@[simp] theorem kindField_eventWord (k u : BitVec 4) : kindField (eventWord k u) = k := by
  have h := eventWord_toNat k u
  generalize eventWord k u = w at h
  have h1 := k.isLt
  have h2 := u.isLt
  apply BitVec.eq_of_toNat_eq
  unfold kindField
  rw [BitVec.extractLsb'_toNat, Nat.shiftRight_eq_div_pow, h]
  omega

@[simp] theorem unitField_eventWord (k u : BitVec 4) : unitField (eventWord k u) = u := by
  have h := eventWord_toNat k u
  generalize eventWord k u = w at h
  have h1 := k.isLt
  have h2 := u.isLt
  apply BitVec.eq_of_toNat_eq
  unfold unitField
  rw [BitVec.extractLsb'_toNat, Nat.shiftRight_eq_div_pow, h]
  omega

@[simp] theorem modeOfBit_modeBit (m : Mode) : modeOfBit (modeBit m) = m := by cases m <;> rfl

end Sys2Proof.Laws
end

