-- ==== Sys2Proof/Laws/PerInstr.lean ====
section
/-! SUPPORT. A law stated once for every instruction: the fixed fields of its encoding are those of the opcode and event tables
(30_encoding.md R131, R136, R141). -/

namespace Sys2Proof.Laws.EncodedFields

open Sys2Proof

/-- `OP` of a command (R136) or `KIND` of an event (R141). -/
def tableField : Instr → Nat
  | .init _ => 0x01
  | .deinit => 0x02
  | .writeIb _ _ => 0x03
  | .readIb _ _ => 0x04
  | .setupEb _ _ _ _ => 0x05
  | .syncTransmit _ => 0x06
  | .asyncTransmit _ => 0x07
  | .cancel _ => 0x08
  | .getJobResult _ => 0x09
  | .getSeqResult _ => 0x0A
  | .getStatus => 0x0B
  | .getHwunitStatus _ => 0x0C
  | .setAsyncMode _ => 0x0D
  | .setHwunitAsyncMode _ _ => 0x0E
  | .mainFunctionHandling => 0x0F
  | .evFifo _ => 0x01
  | .evDmaTx _ => 0x02
  | .evDmaRx _ => 0x03

/-- The encoded word has the table's `OP` and a zero `Z`, or the table's `KIND`. -/
def Statement (i : Instr) : Prop :=
  match encode i with
  | .command cmd _ _ _ => (opField cmd).toNat = tableField i ∧ zField cmd = 0
  | .event evt => (kindField evt).toNat = tableField i

theorem init (a0 : Word) : Statement (.init a0) := by
  unfold Statement encode tableField
  simp

theorem deinit : Statement .deinit := by
  unfold Statement encode tableField
  simp

theorem writeIb (c : BitVec 16) (a0 : Word) : Statement (.writeIb c a0) := by
  unfold Statement encode tableField
  simp

theorem readIb (c : BitVec 16) (a0 : Word) : Statement (.readIb c a0) := by
  unfold Statement encode tableField
  simp

theorem setupEb (c : BitVec 16) (a0 : Word) (a1 : Word) (a2 : Word) : Statement (.setupEb c a0 a1 a2) := by
  unfold Statement encode tableField
  simp

theorem syncTransmit (q : BitVec 16) : Statement (.syncTransmit q) := by
  unfold Statement encode tableField
  simp

theorem asyncTransmit (q : BitVec 16) : Statement (.asyncTransmit q) := by
  unfold Statement encode tableField
  simp

theorem cancel (q : BitVec 16) : Statement (.cancel q) := by
  unfold Statement encode tableField
  simp

theorem getJobResult (j : BitVec 16) : Statement (.getJobResult j) := by
  unfold Statement encode tableField
  simp

theorem getSeqResult (q : BitVec 16) : Statement (.getSeqResult q) := by
  unfold Statement encode tableField
  simp

theorem getStatus : Statement .getStatus := by
  unfold Statement encode tableField
  simp

theorem getHwunitStatus (u : BitVec 16) : Statement (.getHwunitStatus u) := by
  unfold Statement encode tableField
  simp

theorem setAsyncMode (m : Mode) : Statement (.setAsyncMode m) := by
  unfold Statement encode tableField
  simp

theorem setHwunitAsyncMode (u : BitVec 16) (m : Mode) : Statement (.setHwunitAsyncMode u m) := by
  unfold Statement encode tableField
  simp

theorem mainFunctionHandling : Statement .mainFunctionHandling := by
  unfold Statement encode tableField
  simp

theorem evFifo (u : BitVec 4) : Statement (.evFifo u) := by
  unfold Statement encode tableField
  simp

theorem evDmaTx (u : BitVec 4) : Statement (.evDmaTx u) := by
  unfold Statement encode tableField
  simp

theorem evDmaRx (u : BitVec 4) : Statement (.evDmaRx u) := by
  unfold Statement encode tableField
  simp

end Sys2Proof.Laws.EncodedFields
end

