-- ==== Sys2Proof/Tests/Slice0.lean ====
section
/-! SUPPORT. Our own tests: the well-formedness smoke test, the words of 95_test_vectors.md V1, small steps of every instruction on a
small configuration (expected values worked out by hand from the rules), and a witness for the hypotheses of every obligation. -/

namespace Sys2Proof.Tests
open Sys2Proof Sys2Proof.Machine

-- One theorem at a time: many kernel evaluations side by side need more threads than the memory limit admits.
set_option Elab.async false

/-! ## Well-formedness -/

theorem test_wf_evFifo_refuses_13 : (Instr.evFifo 13).wf = false := by decide
theorem test_wf_evDmaTx_refuses_14 : (Instr.evDmaTx 14).wf = false := by decide
theorem test_wf_evDmaRx_refuses_15 : (Instr.evDmaRx 15).wf = false := by decide
theorem test_wf_admits : (Instr.evFifo 12).wf = true ∧ (Instr.asyncTransmit 0xFFFF).wf = true := by decide

/-! ## Decoding: the words of 95_test_vectors.md V1 -/

theorem test_decode_init :
    decode (.command 0x01000000 0x8000 0 0) = .ok (.init 0x8000) := by
  decide +kernel
theorem test_decode_deinit : decodeTableWord 32 0x02000000 = some .deinit := by decide +kernel
theorem test_decode_writeIb :
    decode (.command 0x03000000 0x2000 0 0) = .ok (.writeIb 0 0x2000) ∧ decodeTableWord 32 0x03000003 = some (.writeIb 3 0) := by
  decide +kernel
theorem test_decode_readIb : decode (.command 0x04000000 0x3000 0 0) = .ok (.readIb 0 0x3000) := by decide +kernel
theorem test_decode_setupEb : decode (.command 0x05000001 0x2100 0 2) = .ok (.setupEb 1 0x2100 0 2) := by decide +kernel
theorem test_decode_syncTransmit : decodeTableWord 32 0x06000001 = some (.syncTransmit 1) := by decide +kernel
theorem test_decode_asyncTransmit :
    decodeTableWord 32 0x07000000 = some (.asyncTransmit 0) ∧ decodeTableWord 32 0x0700FFFF = some (.asyncTransmit 0xFFFF) := by
  decide +kernel
theorem test_decode_cancel : decodeTableWord 32 0x08000000 = some (.cancel 0) := by decide +kernel
theorem test_decode_getJobResult : decodeTableWord 32 0x09000001 = some (.getJobResult 1) := by decide +kernel
theorem test_decode_getSeqResult : decodeTableWord 32 0x0A000000 = some (.getSeqResult 0) := by decide +kernel
theorem test_decode_getStatus : decodeTableWord 32 0x0B000000 = some .getStatus := by decide +kernel
theorem test_decode_getHwunitStatus : decodeTableWord 32 0x0C000002 = some (.getHwunitStatus 2) := by decide +kernel
theorem test_decode_setAsyncMode :
    decodeTableWord 32 0x0D010000 = some (.setAsyncMode .interrupt) ∧ decodeTableWord 32 0x0D000000 = some (.setAsyncMode .polling) := by
  decide +kernel
theorem test_decode_setHwunitAsyncMode :
    decodeTableWord 32 0x0E010001 = some (.setHwunitAsyncMode 1 .interrupt) ∧
    decodeTableWord 32 0x0E000000 = some (.setHwunitAsyncMode 0 .polling) := by decide +kernel
theorem test_decode_mainFunctionHandling : decodeTableWord 32 0x0F000000 = some .mainFunctionHandling := by decide +kernel
theorem test_decode_evFifo : decodeTableWord 8 0x10 = some (.evFifo 0) ∧ decodeTableWord 8 0x1C = some (.evFifo 12) := by decide +kernel
theorem test_decode_evDmaTx : decodeTableWord 8 0x21 = some (.evDmaTx 1) := by decide +kernel
theorem test_decode_evDmaRx : decodeTableWord 8 0x31 = some (.evDmaRx 1) := by decide +kernel

/-- The reserved command words of V1, each by its reason. -/
theorem test_decode_reserved_commands :
    decode (.command 0x00000000 0 0 0) = .error (.reservedOp 0x00) ∧ decode (.command 0x10000000 0 0 0) = .error (.reservedOp 0x10) ∧
    decode (.command 0xFF000000 0 0 0) = .error (.reservedOp 0xFF) := by
  decide +kernel
theorem test_decode_reserved_fields :
    decode (.command 0x07800000 0 0 0) = .error .nonzeroZ ∧ decode (.command 0x07010000 0 0 0) = .error .modeNotZero ∧
    decode (.command 0x0B000001 0 0 0) = .error .idNotZero ∧ decode (.command 0x02000005 0 0 0) = .error .idNotZero ∧
    decode (.command 0x0D010001 0 0 0) = .error .idNotZero := by decide +kernel
/-- The reserved event words of V1. -/
theorem test_decode_reserved_events :
    [0x00, 0x0D, 0x40, 0xF0, 0x1D, 0x2F].map (decodeTableWord 8) = [none, none, none, none, none, none] := by decide +kernel

/-! ## A small machine -/

def fifoUnit : UnitCfg := { slave := false, isSync := false, dmaUsed := false, dmaTxCh := 0, dmaRxCh := 0 }
def plainDev : DevCfg :=
  { cpol := false, cpha := false, prescaler := 0, frameSize := 8, clockTiming := 0x11, csIdlePol := 0, contCS := false }
def ibChan (tx rx : Word) (wm : Nat) : ChannelCfg :=
  { bufKind := .ib, defaultValue := 0x1FF, maxLength := 4, width := .w8, ibTxAddr := tx, ibRxAddr := rx, wmTx := wm, wmRx := wm }
def ebChan (n : Nat) : ChannelCfg :=
  { bufKind := .eb, defaultValue := 0xFFFF, maxLength := n, width := .w16, ibTxAddr := 0, ibRxAddr := 0, wmTx := 0, wmRx := 0 }
def jobOn (c u p : Nat) (d : DevCfg) : JobCfg :=
  { channels := [c], hwUnit := u, priority := p, dev := d, startNotif := true, endNotif := true }
def seqOf (js : List Nat) : SeqCfg := { jobs := js, endNotif := true, interruptible := false }

/-- Unit 0 a master with FIFO, unit 1 with DMA on channels 4 and 5, unit 2 synchronous, unit 3 a slave. -/
def small : Cfg :=
  { units := [fifoUnit, { fifoUnit with dmaUsed := true, dmaTxCh := 4, dmaRxCh := 5 }, { fifoUnit with isSync := true },
      { fifoUnit with slave := true }]
    channels := [ibChan 0x1000 0x1010 0, ebChan 8, ebChan 8, ebChan 2000, ibChan 0x1100 0x1110 1]
    jobs := [jobOn 0 0 2 plainDev, jobOn 1 0 2 plainDev, jobOn 2 2 0 { plainDev with contCS := true, csIdlePol := 2 },
      jobOn 3 1 1 { plainDev with contCS := true }, jobOn 4 3 0 plainDev, jobOn 0 0 3 plainDev, jobOn 0 0 1 plainDev,
      jobOn 0 0 3 plainDev, jobOn 0 0 2 plainDev]
    seqs := [seqOf [0, 1], seqOf [2], seqOf [3], seqOf [4], seqOf [5]]
    seqPool := 1
    chanPool := 4 }

def nextOf (o : Host.Outcome State Fault Refusal) : State :=
  match o with
  | .next t => t
  | .fault _ => State.reset
  | .refused _ => State.reset

/-- The state after an instruction. -/
def after (i : Instr) (s : State) : State := nextOf (exec i s)
/-- The part of an answer that is a value. -/
def valueOf {α : Type} (d : α) : Res α → α
  | .ok a => a
  | .error _ => d

/-- After power-on, with `c` built at handle 0x8000. -/
def hosting (c : Cfg) : State := { State.reset with hostConfigs := [(0x8000, c)] }
/-- After `INIT`. -/
def started (c : Cfg) : State := after (.init 0x8000) (hosting c)
/-- The external buffers set up. -/
def buffered (s : State) : State :=
  after (.setupEb 3 0x4000 0x6000 1200) (after (.setupEb 2 0x2200 0x2300 2) (after (.setupEb 1 0x2100 0x2180 2) s))
/-- Polling mode, ready to transmit. -/
def polled : State := buffered (started small)
/-- Interrupt mode, ready to transmit. -/
def armed : State := buffered (after (.setAsyncMode .interrupt) (started small))
/-- `vs` waits in unit `u`'s receive FIFO. -/
def received (u : Nat) (vs : List Word) (s : State) : State := s.setLpspi u { s.lpspiAt u with rxFifo := vs }
/-- Only the new part of the trace. -/
def newEntries (s t : State) : List Entry := t.trace.drop s.trace.length

/-! ## One step of every instruction -/

theorem test_init : newEntries (hosting small) (started small) =
    [.regWrite 0 (.cspol 0), .regWrite 1 (.cspol 0), .dmaBind 4 (.txData 1), .dmaBind 5 (.rxData 1), .regWrite 2 (.cspol 2),
      .regWrite 3 (.cspol 0), .rsp 0] := by decide +kernel
theorem test_init_null : newEntries (hosting small) (after (.init 0) (hosting small)) = [.err 0x01 .paramPointer, .rsp 0] := by
  decide +kernel
theorem test_deinit : (after .deinit polled).drvInit = false ∧ newEntries polled (after .deinit polled) = [.rsp 0] := by decide +kernel
theorem test_deinit_before_init : newEntries State.reset (after .deinit State.reset) = [.err 0x02 .uninit, .rsp 1] := by decide +kernel

/-- Four bytes at 0x2000. -/
def fourBytes (s : State) : State := { s with mem := memWrite s.mem 0x2000 4 0x44332211 }

theorem test_writeIb : memRead (after (.writeIb 0 0x2000) (fourBytes polled)).mem 0x1000 4 = 0x44332211 ∧
    ((after (.writeIb 0 0x2000) (fourBytes polled)).chanAt 0).useDefault = false := by decide +kernel
theorem test_writeIb_on_external : newEntries polled (after (.writeIb 1 0x2000) polled) = [.err 0x03 .paramChannel, .rsp 1] := by
  decide +kernel
theorem test_readIb : memRead (after (.readIb 0 0x3000) { polled with mem := memWrite [] 0x1010 4 0xA4A3A2A1 }).mem 0x3000 4 = 0xA4A3A2A1 := by
  decide +kernel
theorem test_readIb_null : newEntries polled (after (.readIb 0 0) polled) = [.err 0x04 .paramPointer, .rsp 1] := by decide +kernel
theorem test_setupEb : (after (.setupEb 1 0x2100 0 8) polled).chanAt 1 =
    { txPtr := some 0x2100, useDefault := false, rxPtr := none, discardRx := true, length := 8 } := by decide +kernel
theorem test_setupEb_length_before_alignment :
    newEntries polled (after (.setupEb 1 0x2101 0 9) polled) = [.err 0x05 .paramLength, .rsp 1] := by decide +kernel

/-- `SYNC_TRANSMIT` of two 16-bit frames with continuous chip select, the answers waiting: the entries and the stored bytes. -/
theorem test_syncTransmit :
    memRead (after (.syncTransmit 1) (received 2 [0xA1A2, 0xB1B2] polled)).mem 0x2300 4 = 0xB1B2A1A2 ∧ newEntries (received 2 [0xA1A2, 0xB1B2] polled) (after (.syncTransmit 1) (received 2 [0xA1A2, 0xB1B2] polled)) =
    [.notif .jobStart 2, .regWrite 2 (.clkcfg 0x11), .regWrite 2 (.fifoctrl 0 0),
      .regWrite 2 (.txcmd { width := .w16, cpol := false, cpha := false, prescaler := 0, cont := true }),
      .regRead 2 (.fifostat 0 2), .regWrite 2 (.txdata 0), .regRead 2 (.rxdata 0xA1A2),
      .regRead 2 (.fifostat 1 1), .regWrite 2 (.txdata 0),
      .regWrite 2 (.txcmd { width := .w16, cpol := false, cpha := false, prescaler := 0, cont := false }),
      .regRead 2 (.rxdata 0xB1B2), .notif .jobEnd 2, .rsp 0] := by decide +kernel
/-- Five passes to go; the first frame is answered before the second pass, the second is taken and never answered. -/
def unanswered : State :=
  { polled with
    params := { polled.params with timeoutCounter := 5 }
    inputs := [{ wait := some 10, what := .shift 2 0xA1A2 }, { wait := some 2, what := .take 2 }] }

/-- The time-out variant of 44_sync_transmit.md R316 (95_test_vectors.md P2b): `FIFOSTAT` = (0,0) until the counter is 0. -/
theorem test_syncTransmit_unanswered : newEntries unanswered (after (.syncTransmit 1) unanswered) =
    [.notif .jobStart 2, .regWrite 2 (.clkcfg 0x11), .regWrite 2 (.fifoctrl 0 0),
      .regWrite 2 (.txcmd { width := .w16, cpol := false, cpha := false, prescaler := 0, cont := true }),
      .regRead 2 (.fifostat 0 0), .regWrite 2 (.txdata 0), .regRead 2 (.fifostat 0 1), .regWrite 2 (.txdata 0),
      .regWrite 2 (.txcmd { width := .w16, cpol := false, cpha := false, prescaler := 0, cont := false }),
      .regRead 2 (.rxdata 0xA1A2), .regRead 2 (.fifostat 0 0), .regRead 2 (.fifostat 0 0), .regRead 2 (.fifostat 0 0),
      .notif .jobEnd 2, .demTimeout, .rsp 1] := by decide +kernel

/-- `ASYNC_TRANSMIT` of 95_test_vectors.md P1, in interrupt mode: every channel still sends its default value. -/
theorem test_asyncTransmit : newEntries armed (after (.asyncTransmit 0) armed) =
    [.notif .jobStart 0, .regWrite 0 (.clkcfg 0x11), .regWrite 0 (.fifoctrl 0 0),
      .regWrite 0 (.txcmd { width := .w8, cpol := false, cpha := false, prescaler := 0, cont := false }),
      .regWrite 0 (.txdata 0xFF), .irqEnable 0 true, .rsp 0] := by decide +kernel
theorem test_asyncTransmit_dma : ((after (.asyncTransmit 2) armed).dmaAt 4).iterLeft = 511 ∧
    ((after (.asyncTransmit 2) armed).devAt 1).remainingData = 689 := by decide +kernel

/-- A job in flight on unit 0. -/
def flying : State := after (.asyncTransmit 0) armed

theorem test_cancel : ((after (.cancel 0) flying).seqAt 0).result = .cancelled ∧
    ((after (.cancel 0) flying).jobAt 0).owner = some 0 := by decide +kernel
theorem test_cancel_slave : newEntries (after (.asyncTransmit 3) armed) (after (.cancel 3) (after (.asyncTransmit 3) armed)) =
    [.irqEnable 3 false, .regRead 3 (.stat false false false), .regWrite 3 (.ctrl true true), .notif .jobEnd 4, .rsp 0] := by
  decide +kernel
theorem test_getJobResult : newEntries flying (after (.getJobResult 0) flying) = [.rsp 1] ∧
    newEntries flying (after (.getJobResult 1) flying) = [.rsp 3] := by decide +kernel
theorem test_getSeqResult : newEntries flying (after (.getSeqResult 0) flying) = [.rsp 1] := by decide +kernel
theorem test_getStatus : newEntries flying (after .getStatus flying) = [.rsp 2] ∧
    newEntries armed (after .getStatus armed) = [.rsp 1] := by decide +kernel
theorem test_getHwunitStatus : newEntries flying (after (.getHwunitStatus 0) flying) = [.rsp 2] ∧
    newEntries flying (after (.getHwunitStatus 1) flying) = [.rsp 1] := by decide +kernel
theorem test_setAsyncMode : ((after (.setAsyncMode .interrupt) polled).devAt 0).asyncMode = .interrupt ∧
    ((after (.setAsyncMode .interrupt) polled).devAt 2).asyncMode = .polling := by decide +kernel
theorem test_setAsyncMode_busy : newEntries flying (after (.setAsyncMode .polling) flying) = [.rsp 1] := by decide +kernel
theorem test_setHwunitAsyncMode : ((after (.setHwunitAsyncMode 1 .interrupt) polled).devAt 1).asyncMode = .interrupt := by
  decide +kernel
theorem test_setHwunitAsyncMode_sync :
    newEntries polled (after (.setHwunitAsyncMode 2 .interrupt) polled) = [.err 0x0E .paramUnit, .rsp 1] := by decide +kernel

/-- A job in flight on unit 0 in polling mode, with one frame received. -/
def polling : State := received 0 [0x5A] (after (.asyncTransmit 0) polled)

theorem test_mainFunctionHandling : newEntries polling (after .mainFunctionHandling polling) =
    [.regRead 0 (.stat false true false), .regRead 0 (.fifostat 1 1), .regRead 0 (.rxdata 0x5A), .regWrite 0 (.txdata 0xFF),
      .rsp 0] := by decide +kernel
/-- The same job, its first frame taken to shift and not answered yet. -/
def shifting : State :=
  let s := after (.asyncTransmit 0) polled
  s.setLpspi 0 (s.lpspiAt 0).take

/-- 95_test_vectors.md V6.3. -/
theorem test_mainFunctionHandling_unanswered : after .mainFunctionHandling shifting =
    shifting.says [.regRead 0 (.stat true false false), .regRead 0 (.fifostat 0 0)] 0 := by decide +kernel
theorem test_evFifo : newEntries flying (after (.evFifo 0) (received 0 [0x11, 0x22] flying)) =
    [.regRead 0 (.fifostat 1 2), .regRead 0 (.rxdata 0x11), .regWrite 0 (.txdata 0xFF)] := by decide +kernel
theorem test_evFifo_keeps_the_byte : memRead (after (.evFifo 0) (received 0 [0x1A7] flying)).mem 0x1010 1 = 0xA7 := by decide +kernel

/-- A DMA job in flight on unit 1. -/
def dmaFlying : State := after (.asyncTransmit 2) armed
/-- Channel `ch` of the DMA engine has done its pass. -/
def passDone (ch : Nat) (s : State) : State := s.setDma ch { s.dmaAt ch with iterLeft := 0, active := false, done := true }

theorem test_evDmaTx : newEntries dmaFlying (after (.evDmaTx 1) (passDone 4 dmaFlying)) =
    [.dmaAck 4, .dmaSetIter 4 511, .dmaStart 4] := by decide +kernel
theorem test_evDmaRx : newEntries dmaFlying (after (.evDmaRx 1) (passDone 5 dmaFlying)) =
    [.dmaAck 5, .dmaSetIter 5 511, .dmaStart 5] ∧
    ((after (.evDmaRx 1) (passDone 5 dmaFlying)).devAt 1).receivedData = 178 := by decide +kernel

/-! ## Witnesses: the hypotheses of the obligations can be met -/

theorem witness_DecodeAfterEncode : (Instr.evFifo 12).wf = true ∧ (Instr.asyncTransmit 0xFFFF).wf = true := by decide

theorem witness_OpcodeMapDecodes :
    (0x01000000 : Word) &&& 0xFFFFFFFF = 0x01000000 ∧ (0x02000000 : Word) &&& 0xFFFFFFFF = 0x02000000 ∧
    (0x0300FFFF : Word) &&& 0xFFFF0000 = 0x03000000 ∧ (0x0400FFFF : Word) &&& 0xFFFF0000 = 0x04000000 ∧
    (0x0500FFFF : Word) &&& 0xFFFF0000 = 0x05000000 ∧ (0x0600FFFF : Word) &&& 0xFFFF0000 = 0x06000000 ∧
    (0x0700FFFF : Word) &&& 0xFFFF0000 = 0x07000000 ∧ (0x0800FFFF : Word) &&& 0xFFFF0000 = 0x08000000 ∧
    (0x0900FFFF : Word) &&& 0xFFFF0000 = 0x09000000 ∧ (0x0A00FFFF : Word) &&& 0xFFFF0000 = 0x0A000000 ∧
    (0x0B000000 : Word) &&& 0xFFFFFFFF = 0x0B000000 ∧ (0x0C00FFFF : Word) &&& 0xFFFF0000 = 0x0C000000 ∧
    (0x0D010000 : Word) &&& 0xFFFEFFFF = 0x0D000000 ∧ (0x0E01FFFF : Word) &&& 0xFFFE0000 = 0x0E000000 ∧
    (0x0F000000 : Word) &&& 0xFFFFFFFF = 0x0F000000 := by decide +kernel

theorem witness_StepRunsTheDecodedInstruction :
    nextStimulus (polled.present (.port (.command 0x07000000 0 0 0))) = some (.port (.command 0x07000000 0 0 0), polled) ∧
    decode (.command 0x07000000 0 0 0) = .ok (.asyncTransmit 0) ∧
    portWordsOfBits 32 0x07000000 = some (.command 0x07000000 0 0 0) := by decide +kernel

/-- `s` with the delivered variant `l`. -/
def variant (l : Level) (s : State) : State := { s with params := { s.params with level := l } }

theorem presented_next (s : State) (p : PortWords) : nextStimulus (s.present (.port p)) = some (.port p, s) := rfl

theorem witness_ReservedWords :
    nextStimulus (polled.present (.port (.command 0x07800000 0 0 0))) = some (.port (.command 0x07800000 0 0 0), polled) ∧
    opField 0x00000000 = 0x00 ∧ 0x10 ≤ (opField 0x10000000).toNat ∧ zField 0x07800000 ≠ 0 ∧
    (modeField 0x07010000 ≠ 0 ∧ opField 0x07010000 ≠ 0x0D ∧ opField 0x07010000 ≠ 0x0E) ∧
    (idField 0x0D010001 ≠ 0 ∧ opField 0x0D010001 = 0x0D) ∧
    ((variant .syncOnly polled).params.level = .syncOnly ∧ opField 0x07000000 = 0x07) ∧
    (variant .asyncOnly polled).params.level = .asyncOnly ∧ opField 0x06000000 = 0x06 :=
  ⟨presented_next _ _, by decide +kernel⟩

theorem witness_ReservedWords_events :
    nextStimulus (polled.present (.port (.event 0x1D))) = some (.port (.event 0x1D), polled) ∧
    kindField 0x00 = 0 ∧ 4 ≤ (kindField 0x40).toNat ∧ 13 ≤ (unitField 0x1D).toNat :=
  ⟨presented_next _ _, by decide +kernel⟩

theorem witness_SpuriousEventsDoNothing :
    ({ armed with params := { armed.params with level := .syncOnly } } : State).params.level = .syncOnly ∧
    State.reset.drvInit = false ∧ armed.cfg.numUnits ≤ (4 : BitVec 4).toNat ∧ (armed.cfg.unitAt (2 : BitVec 4).toNat).isSync = true ∧
    (polled.devAt (0 : BitVec 4).toNat).asyncMode ≠ .interrupt ∧ (armed.devAt (3 : BitVec 4).toNat).curJob = none ∧
    (dmaFlying.cfg.unitAt (1 : BitVec 4).toNat).dmaUsed = true ∧ (armed.devAt (0 : BitVec 4).toNat).irqEnabled = false ∧
    (dmaFlying.dmaAt (dmaFlying.cfg.unitAt (1 : BitVec 4).toNat).dmaTxCh).done = false ∧
    (dmaFlying.dmaAt (dmaFlying.cfg.unitAt (1 : BitVec 4).toNat).dmaRxCh).done = false ∧
    (flying.cfg.unitAt (0 : BitVec 4).toNat).dmaUsed = false := by decide +kernel

/-- `ASYNC_TRANSMIT(0)` is presented. -/
def presented : State := armed.withFetchWord 32 0x07000000

theorem eq_next_of_answersNext {o : Host.Outcome State Fault Refusal} (h : answersNext o = true) : o = .next (nextOf o) := by
  cases o with
  | next t => rfl
  | fault r => cases h
  | refused r => cases h

/-- The step that the next six witnesses share. -/
theorem presented_steps : step presented = .next (nextOf (step presented)) := eq_next_of_answersNext (by decide +kernel)

theorem witness_StepKeepsMemoryCanonical : presented.memOk = true ∧ step presented = .next (nextOf (step presented)) :=
  ⟨by decide +kernel, presented_steps⟩
theorem witness_StepKeepsUnitMasks : presented.masksOk = true ∧ step presented = .next (nextOf (step presented)) :=
  ⟨by decide +kernel, presented_steps⟩
theorem witness_StepKeepsQueues : presented.queuesOk = true ∧ step presented = .next (nextOf (step presented)) :=
  ⟨by decide +kernel, presented_steps⟩
theorem witness_StepKeepsTables : presented.tablesOk = true ∧ step presented = .next (nextOf (step presented)) :=
  ⟨by decide +kernel, presented_steps⟩
theorem witness_StepKeepsParameters : step presented = .next (nextOf (step presented)) := presented_steps
theorem witness_StepKeepsCounters : presented.countersOk = true ∧ step presented = .next (nextOf (step presented)) :=
  ⟨by decide +kernel, presented_steps⟩
theorem test_step_keeps_the_invariant : (nextOf (step presented)).inv = true := by decide +kernel

theorem witness_PowerOn : 12 < 13 := by decide

theorem witness_InitWritesTheTables :
    (hosting small).undisturbed = true ∧ (hosting small).drvInit = false ∧ (0x8000 : Word) ≠ 0 ∧
    lookupConfig (hosting small).hostConfigs 0x8000 = some small ∧ cfgWellFormed (hosting small).params small = true ∧
    (hosting small).unit.length = 13 ∧ (hosting small).dev.length = 13 ∧ (hosting small).lpspi.length = 13 := by decide +kernel

theorem witness_UsedUnitsMask :
    Params.standard.concurrentSync = true ∧ ({ Params.standard with concurrentSync := false } : Params).concurrentSync = false ∧
    small.numUnits ≤ 13 ∧ cfgWellFormed Params.standard small = true ∧ seqOf [0, 1] ∈ small.seqs := by decide +kernel

theorem witness_SequenceCacheFilled :
    (seqCacheOf Params.standard { small with seqPool := 0 } = []) ∧
    cacheEntry Params.standard small 1 2 ∈ seqCacheOf Params.standard small ∧ small.seqPool ≠ 0 ∧ small.chanPool ≠ 0 ∧
    2 < small.numSeqs ∧ (small.seqAt 2).jobs = [3] ∧ ∀ e ∈ seqCacheOf Params.standard small, e.seq ≠ 2 := by decide +kernel

/-- The configuration with sequence 0 having no job. -/
def jobless : Cfg := { small with seqs := [seqOf []] }

theorem witness_InitRefusesBadConfigurations :
    polled.drvInit = true ∧ (hosting jobless).drvInit = false ∧ (0x8000 : Word) ≠ 0 ∧
    lookupConfig (hosting jobless).hostConfigs 0x8000 = some jobless ∧ cfgWellFormed (hosting jobless).params jobless = false ∧
    (∃ q ∈ jobless.seqs, q.jobs = []) ∧ 13 < ({ small with units := List.replicate 14 fifoUnit } : Cfg).numUnits ∧
    ({ Params.standard with maxJobs := 8 } : Params).maxJobs < small.numJobs := by decide +kernel

theorem witness_DeinitCases :
    flying.drvInit = true ∧ (∃ u, u < flying.cfg.numUnits ∧ (flying.unitAt u).status = .busy) ∧ polled.drvInit = true ∧
    polled.syncBusyMask = 0 ∧ (∀ u, u < polled.cfg.numUnits → (polled.unitAt u).status ≠ .busy) := by decide +kernel

theorem witness_UninitializedCommandsFail :
    State.reset.drvInit = false ∧ State.reset.params.level ≠ .asyncOnly ∧ State.reset.params.level ≠ .syncOnly ∧ polled.drvInit = true := by
  decide +kernel

theorem witness_IdsOutOfRangeFail :
    polled.drvInit = true ∧ polled.cfg.numChannels ≤ (5 : BitVec 16).toNat ∧ polled.cfg.numSeqs ≤ (5 : BitVec 16).toNat ∧
    polled.cfg.numJobs ≤ (9 : BitVec 16).toNat ∧ polled.cfg.numUnits ≤ (4 : BitVec 16).toNat ∧
    polled.params.level ≠ .asyncOnly ∧ polled.params.level ≠ .syncOnly := by decide +kernel

theorem witness_ActiveChannelsAreRefused :
    flying.drvInit = true ∧ (0 : BitVec 16).toNat < flying.cfg.numChannels ∧ flying.channelActive (0 : BitVec 16).toNat = true ∧
    (flying.cfg.channelAt (0 : BitVec 16).toNat).bufKind = .ib ∧ flying.channelActive (1 : BitVec 16).toNat = true ∧
    (flying.cfg.channelAt (1 : BitVec 16).toNat).bufKind = .eb ∧ (8 : Word).toNat ≤ (flying.cfg.channelAt (1 : BitVec 16).toNat).maxLength ∧
    (0x2100 : Word).toNat % bpf (flying.widthOf (1 : BitVec 16).toNat) = 0 := by decide +kernel

theorem witness_WriteIbFillsTheBuffer :
    polled.drvInit = true ∧ (polled.cfg.channelAt (1 : BitVec 16).toNat).bufKind = .eb ∧ (0 : BitVec 16).toNat < polled.cfg.numChannels ∧
    (polled.cfg.channelAt (0 : BitVec 16).toNat).bufKind = .ib ∧ polled.channelActive (0 : BitVec 16).toNat = false ∧
    (0x1004 : Word) ≠ 0 ∧ (0x1004 : Word).toNat % bpf (polled.widthOf (0 : BitVec 16).toNat) = 0 ∧
    (polled.cfg.channelAt (0 : BitVec 16).toNat).ibTxAddr.toNat + polled.bufBytes (0 : BitVec 16).toNat ≤ (0x1004 : Word).toNat ∧
    polled.memOk = true ∧ (0x1004 : Word).toNat + polled.bufBytes (0 : BitVec 16).toNat ≤ addressCount ∧
    (polled.cfg.channelAt (0 : BitVec 16).toNat).ibTxAddr.toNat + polled.bufBytes (0 : BitVec 16).toNat ≤ addressCount ∧
    (0x1003 : Word).toNat < (polled.cfg.channelAt (0 : BitVec 16).toNat).ibTxAddr.toNat + polled.bufBytes (0 : BitVec 16).toNat ∧
    (polled.cfg.channelAt (0 : BitVec 16).toNat).ibTxAddr.toNat < (0x1003 : Word).toNat + polled.bufBytes (0 : BitVec 16).toNat ∧
    0 < polled.bufBytes (0 : BitVec 16).toNat := by decide +kernel

/-- The small configuration with an internal channel of 16-bit frames. -/
def wide : Cfg := { small with channels := { ibChan 0x1000 0x1010 0 with width := .w16 } :: small.channels.drop 1 }

theorem witness_BufferAlignment :
    (started wide).drvInit = true ∧ (0 : BitVec 16).toNat < (started wide).cfg.numChannels ∧
    ((started wide).cfg.channelAt (0 : BitVec 16).toNat).bufKind = .ib ∧ (started wide).channelActive (0 : BitVec 16).toNat = false ∧
    (0x2001 : Word).toNat % bpf ((started wide).widthOf (0 : BitVec 16).toNat) ≠ 0 := by decide +kernel

theorem witness_ReadIbCopiesOut :
    polled.drvInit = true ∧ (polled.cfg.channelAt (1 : BitVec 16).toNat).bufKind = .eb ∧ (0 : BitVec 16).toNat < polled.cfg.numChannels ∧
    (polled.cfg.channelAt (0 : BitVec 16).toNat).bufKind = .ib ∧ (0x1012 : Word) ≠ 0 ∧
    (0x1012 : Word).toNat % bpf (polled.widthOf (0 : BitVec 16).toNat) = 0 ∧
    (polled.cfg.channelAt (0 : BitVec 16).toNat).ibRxAddr.toNat % bpf (polled.widthOf (0 : BitVec 16).toNat) = 0 ∧
    polled.memOk = true ∧ (0x1012 : Word).toNat + polled.bufBytes (0 : BitVec 16).toNat ≤ addressCount ∧
    (polled.cfg.channelAt (0 : BitVec 16).toNat).ibRxAddr.toNat + polled.bufBytes (0 : BitVec 16).toNat ≤ addressCount ∧
    (polled.cfg.channelAt (0 : BitVec 16).toNat).ibRxAddr.toNat ≤ (0x1012 : Word).toNat ∧
    (polled.cfg.channelAt (0 : BitVec 16).toNat).ibRxAddr.toNat + polled.bufBytes (0 : BitVec 16).toNat ≤ (0x1014 : Word).toNat := by
  decide +kernel

theorem witness_CopyPastMemoryFaults :
    polled.drvInit = true ∧ (0 : BitVec 16).toNat < polled.cfg.numChannels ∧
    (polled.cfg.channelAt (0 : BitVec 16).toNat).bufKind = .ib ∧ (0xFFFFFFFD : Word) ≠ 0 ∧
    (0xFFFFFFFD : Word).toNat % bpf (polled.widthOf (0 : BitVec 16).toNat) = 0 ∧ 0 < polled.bufBytes (0 : BitVec 16).toNat ∧
    addressCount < (0xFFFFFFFD : Word).toNat + polled.bufBytes (0 : BitVec 16).toNat ∧ polled.channelActive (0 : BitVec 16).toNat = false ∧
    (polled.cfg.channelAt (0 : BitVec 16).toNat).ibTxAddr.toNat + polled.bufBytes (0 : BitVec 16).toNat ≤ (0xFFFFFFFD : Word).toNat := by
  decide +kernel

theorem witness_SetupEbCases :
    polled.drvInit = true ∧ (1 : BitVec 16).toNat < polled.cfg.numChannels ∧
    (polled.cfg.channelAt (0 : BitVec 16).toNat).bufKind = .ib ∧ (polled.cfg.channelAt (1 : BitVec 16).toNat).bufKind = .eb ∧
    (polled.cfg.channelAt (1 : BitVec 16).toNat).maxLength < (9 : Word).toNat ∧
    (8 : Word) ≠ 0 ∧ (8 : Word).toNat ≤ (polled.cfg.channelAt (1 : BitVec 16).toNat).maxLength ∧
    ((0x2101 : Word) ≠ 0 ∧ (0x2101 : Word).toNat % bpf (polled.widthOf (1 : BitVec 16).toNat) ≠ 0) ∧
    (0x2100 : Word).toNat % bpf (polled.widthOf (1 : BitVec 16).toNat) = 0 ∧
    flying.channelActive (1 : BitVec 16).toNat = true ∧ polled.channelActive (1 : BitVec 16).toNat = false := by decide +kernel

/-- Unit 2 claimed by a synchronous transmit. -/
def claimed : State := { polled with syncBusyMask := 4 }

theorem witness_ResultQueriesAnswer :
    State.reset.drvInit = false ∧ polled.drvInit = true ∧ polled.cfg.numJobs ≤ (9 : BitVec 16).toNat ∧
    (8 : BitVec 16).toNat < polled.cfg.numJobs ∧ polled.cfg.numSeqs ≤ (5 : BitVec 16).toNat ∧
    (4 : BitVec 16).toNat < polled.cfg.numSeqs := by decide +kernel

theorem witness_StatusQueriesAnswer :
    polled.drvInit = true ∧ State.reset.drvInit = false ∧
    (3 : BitVec 16).toNat < polled.cfg.numUnits ∧ claimed.syncBusyMask.getLsbD (2 : BitVec 16).toNat = true ∧ claimed.syncBusyMask ≠ 0 ∧
    polled.syncBusyMask.getLsbD (3 : BitVec 16).toNat = false ∧ (∃ u, u < flying.cfg.numUnits ∧ (flying.unitAt u).status = .busy) ∧
    polled.syncBusyMask = 0 ∧ (∀ u, u < polled.cfg.numUnits → (polled.unitAt u).status ≠ .busy) := by decide +kernel

theorem witness_SetAsyncModeAllOrNone :
    polled.params.level ≠ .syncOnly ∧ polled.drvInit = true ∧
    (∃ u, u < flying.cfg.numUnits ∧ (flying.cfg.unitAt u).isSync = false ∧ (flying.unitAt u).status = .busy) ∧
    (∀ u, u < polled.cfg.numUnits → (polled.cfg.unitAt u).isSync = false → (polled.unitAt u).status ≠ .busy) ∧
    (0 < polled.cfg.numUnits ∧ (polled.cfg.unitAt 0).isSync = false ∧ 0 < polled.dev.length) ∧
    (polled.cfg.unitAt 2).isSync = true := by decide +kernel

theorem witness_SetHwunitAsyncModeCases :
    polled.params.level ≠ .syncOnly ∧ polled.drvInit = true ∧ polled.cfg.numUnits ≤ (4 : BitVec 16).toNat ∧
    (polled.cfg.unitAt (2 : BitVec 16).toNat).isSync = true ∧ (3 : BitVec 16).toNat < polled.cfg.numUnits ∧
    (polled.cfg.unitAt (3 : BitVec 16).toNat).isSync = false ∧ (polled.unitAt (3 : BitVec 16).toNat).status ≠ .busy ∧
    (flying.unitAt (0 : BitVec 16).toNat).status = .busy := by decide +kernel

theorem witness_MainFunctionPolls :
    (polled.undisturbed = true ∧ polled.params.level ≠ .syncOnly ∧ polled.drvInit = true ∧
      ∀ u, u < polled.cfg.numUnits → ¬ polled.toPoll u) ∧
    ((after (.asyncTransmit 0) polled).undisturbed = true ∧ (after (.asyncTransmit 0) polled).pollsOnly 0 ∧
      ((after (.asyncTransmit 0) polled).cfg.unitAt 0).dmaUsed = false ∧
      ((after (.asyncTransmit 0) polled).lpspiAt 0).tdf = false ∧ ((after (.asyncTransmit 0) polled).lpspiAt 0).rdf = false) ∧
    (polling.undisturbed = true ∧ polling.tablesOk = true ∧ polling.memOk = true ∧ polling.pollsOnly 0 ∧
      (polling.cfg.unitAt 0).dmaUsed = false ∧ (polling.lpspiAt 0).rdf = true ∧ polling.midChannel 0 0 0 0 ∧
      (polling.lpspiAt 0).rxFifo = [0x5A]) := by
  unfold State.midChannel State.pollsOnly State.toPoll
  exact ⟨by decide +kernel, by decide +kernel, by decide +kernel⟩

theorem witness_MainFunctionPolls_unanswered :
    shifting.undisturbed = true ∧ shifting.pollsOnly 0 ∧ (shifting.cfg.unitAt 0).dmaUsed = false ∧
    (shifting.cfg.unitAt 0).slave = false ∧ (shifting.lpspiAt 0).tdf = true ∧ (shifting.lpspiAt 0).rxFifo = [] ∧
    (shifting.devAt 0).rxDone = false := by
  unfold State.pollsOnly State.toPoll
  decide +kernel

/-- The slave unit in the middle of its channel: two frames have come in, one more goes out. -/
def draining (s : State) : State :=
  let s := received 3 [0x1AA, 0xBB] (after (.asyncTransmit 3) s)
  (s.setDev 3 { s.devAt 3 with txRemaining := 2, sentFrames := 2, txDone := false }).setLpspi 3
    { s.lpspiAt 3 with txFifo := List.replicate 3 (.frame 0xFF) }

theorem witness_MainFunctionPolls_slave :
    (draining polled).undisturbed = true ∧ (draining polled).tablesOk = true ∧ (draining polled).memOk = true ∧
    (draining polled).pollsOnly 3 ∧ ((draining polled).cfg.unitAt 3).dmaUsed = false ∧
    ((draining polled).lpspiAt 3).rdf = true ∧ (draining polled).midSlave 3 4 4 4 2 1 := by
  unfold State.midSlave State.pollsOnly State.toPoll
  decide +kernel

/-- A DMA job in flight on unit 1 in polling mode. -/
def dmaPolling : State := after (.asyncTransmit 2) polled

theorem witness_MainFunctionPolls_dma :
    (dmaPolling.undisturbed = true ∧ dmaPolling.tablesOk = true ∧ dmaPolling.pollsOnly 1 ∧
      (dmaPolling.cfg.unitAt 1).dmaUsed = true ∧ (dmaPolling.devAt 1).curJob = some 3 ∧ 4 = (dmaPolling.cfg.unitAt 1).dmaTxCh ∧
      5 = (dmaPolling.cfg.unitAt 1).dmaRxCh ∧ false = (dmaPolling.dmaAt 4).done ∧ false = (dmaPolling.dmaAt 5).done ∧
      (dmaPolling.devAt 1).txDone = false ∧ (dmaPolling.devAt 1).rxDone = false) ∧
    (passDone 5 (passDone 4 dmaPolling)).pollsOnly 1 ∧ true = ((passDone 5 (passDone 4 dmaPolling)).dmaAt 4).done ∧
    true = ((passDone 5 (passDone 4 dmaPolling)).dmaAt 5).done ∧ (dmaPolling.devAt 1).remainingData = 689 ∧
    (dmaPolling.devAt 1).receivedData = 689 ∧ dmaPolling.otherChannel 1 6 := by
  unfold State.pollsOnly State.toPoll State.otherChannel
  exact ⟨by decide +kernel, by decide +kernel⟩

/-- `polled`, but sequence `q` is `PENDING`. -/
def pendingSeq (q : Nat) : State := polled.setSeqResult q .pending
/-- The small configuration with a sequence that lists a job twice. -/
def doubled : Cfg := { small with seqs := seqOf [0, 0] :: small.seqs.drop 1 }

theorem witness_ConcurrencyRejections :
    ((pendingSeq 0).undisturbed = true ∧ (pendingSeq 0).tablesOk = true ∧ (pendingSeq 0).drvInit = true ∧
      (0 : BitVec 16).toNat < (pendingSeq 0).cfg.numSeqs ∧ (pendingSeq 0).params.level ≠ .syncOnly ∧
      (pendingSeq 0).seqIsSync (0 : BitVec 16).toNat = false ∧ ((pendingSeq 0).seqAt (0 : BitVec 16).toNat).result = .pending) ∧
    (∃ j ∈ (flying.cfg.seqAt (0 : BitVec 16).toNat).jobs, (flying.jobAt j).owner ≠ none) ∧
    ((started doubled).tablesOk = true ∧ (started doubled).drvInit = true ∧
      (started doubled).seqIsSync (0 : BitVec 16).toNat = false ∧
      ¬ ((started doubled).cfg.seqAt (0 : BitVec 16).toNat).jobs.Nodup) ∧
    claimed.undisturbed = true ∧ claimed.tablesOk = true ∧ claimed.drvInit = true ∧ (1 : BitVec 16).toNat < claimed.cfg.numSeqs ∧
    claimed.params.level ≠ .asyncOnly ∧ claimed.seqIsSync (1 : BitVec 16).toNat = true ∧
    claimed.syncBusyMask &&& claimed.usedUnits (1 : BitVec 16).toNat ≠ 0 ∧
    (pendingSeq 1).undisturbed = true ∧ (pendingSeq 1).tablesOk = true ∧ (pendingSeq 1).drvInit = true ∧
    (pendingSeq 1).seqIsSync (1 : BitVec 16).toNat = true ∧ ((pendingSeq 1).seqAt (1 : BitVec 16).toNat).result = .pending := by
  decide +kernel

/-- A cancelled sequence whose one job is about to finish; an `ASYNC_TRANSMIT` of it arrives `w` boundaries after `CS7`. -/
def cancelling (w : Nat) : State :=
  { after (.cancel 4) (after (.asyncTransmit 4) armed) with
    inputs := [{ wait := some (w + 1), what := .port (encode (.asyncTransmit 4)) }] }

theorem witness_ConcurrencyRejections_nested : ∀ w, w < 2 →
    (cancelling w).inputs = [{ wait := some (w + 1), what := .port (encode (.asyncTransmit 4)) }] ∧
    (cancelling w).params.hostPreemption = true ∧ Ctx.foreground.handler = false ∧ (cancelling w).params.level ≠ .syncOnly ∧
    (cancelling w).tablesOk = true ∧ (cancelling w).drvInit = true ∧ (4 : BitVec 16).toNat < (cancelling w).cfg.numSeqs ∧
    (cancelling w).seqIsSync (4 : BitVec 16).toNat = false ∧ 5 < (cancelling w).cfg.numJobs ∧ 0 = (cancelling w).unitOf 5 ∧
    ((cancelling w).jobAt 5).owner = some (4 : BitVec 16).toNat ∧ ((cancelling w).seqAt (4 : BitVec 16).toNat).result = .cancelled ∧
    ((cancelling w).seqAt (4 : BitVec 16).toNat).remainingJobs = 0 + 1 ∧ ((cancelling w).unitAt 0).maxPrio < 0 := by decide +kernel

/-- It is rejected, `CANCELLED` stands, and the clean-up leaves no job of the sequence locked (46_cancel.md R380). -/
theorem test_transmit_before_the_cleanup_is_rejected :
    newEntries (cancelling 0) (valueOf polled (jobTransferFinished (deliver 1) Ctx.foreground 5 (cancelling 0))) =
      [.err 0x07 .seqPending, .rsp 1, .notif .jobEnd 5] ∧
    ((valueOf polled (jobTransferFinished (deliver 1) Ctx.foreground 5 (cancelling 0))).seqAt 4).result = .cancelled ∧
    ((valueOf polled (jobTransferFinished (deliver 1) Ctx.foreground 5 (cancelling 0))).jobAt 5).owner = none := by decide +kernel

theorem witness_SyncTransmitAlwaysEnds :
    polled.undisturbed = true ∧ polled.tablesOk = true ∧ polled.params.level ≠ .asyncOnly ∧ polled.drvInit = true ∧
    (1 : BitVec 16).toNat < polled.cfg.numSeqs ∧ polled.seqIsSync (1 : BitVec 16).toNat = true ∧
    (polled.seqAt (1 : BitVec 16).toNat).result ≠ .pending ∧ polled.syncBusyMask &&& polled.usedUnits (1 : BitVec 16).toNat = 0 ∧
    (∀ j ∈ (polled.cfg.seqAt (1 : BitVec 16).toNat).jobs, polled.jobReady j = true) := by decide +kernel

/-- Both answers wait for sequence 1. -/
def answered : State := received 2 [0xA1A2, 0xB1B2] polled

theorem witness_SyncTransmitSucceeds :
    answered.undisturbed = true ∧ answered.tablesOk = true ∧ answered.memOk = true ∧ answered.params.level ≠ .asyncOnly ∧
    answered.drvInit = true ∧ (1 : BitVec 16).toNat < answered.cfg.numSeqs ∧ answered.seqIsSync (1 : BitVec 16).toNat = true ∧
    (answered.seqAt (1 : BitVec 16).toNat).result ≠ .pending ∧ answered.syncBusyMask &&& answered.usedUnits (1 : BitVec 16).toNat = 0 ∧
    (answered.cfg.seqAt (1 : BitVec 16).toNat).jobs = [2] ∧ (answered.cfg.jobAt 2).channels = [2] ∧ 2 = answered.unitOf 2 ∧
    answered.jobReady 2 = true ∧ (answered.chanAt 2).length ≤ (answered.lpspiAt 2).rxFifo.length ∧
    (answered.lpspiAt 2).txCount + (answered.chanAt 2).length ≤ answered.params.fifoSize ∧
    (answered.chanAt 2).length ≤ answered.params.timeoutCounter.toNat ∧
    (∀ i, i < (answered.chanAt 2).length → txFrameValue answered 2 (answered.widthOf 2) i = .ok 0) := by decide +kernel

/-- Moves of other hardware and of the host wait, one of them due. -/
def surrounded : State :=
  { polled with inputs := [{ wait := some 0, what := .shift 2 7 }, { wait := some 3, what := .hostStore 0x2200 1 }] }

theorem witness_FastPathEqualsGeneralPath :
    (surrounded.noProcedureWaits = true ∧ surrounded.tablesOk = true ∧ surrounded.drvInit = true) ∧
    (polled.tablesOk = true ∧ polled.drvInit = true ∧ 1 < polled.cfg.numSeqs) ∧
    ∀ (ctx' : Ctx) (x y : State), (fun _ s => .ok s : Boundary) ctx' x = .ok y → y.cfg = x.cfg ∧ y.dev.length = x.dev.length ∧
      y.devAt (polled.unitOf (tget (polled.cfg.seqAt 1).jobs 0)) = x.devAt (polled.unitOf (tget (polled.cfg.seqAt 1).jobs 0)) :=
  ⟨by decide +kernel, by decide +kernel, fun _ _ _ h => by cases h; exact ⟨rfl, rfl, rfl⟩⟩

/-- Frames left to send on unit 2. -/
def unsent : State := polled.setDev 2 { polled.devAt 2 with txRemaining := 1 }

theorem witness_TimedOutSequenceIsPoisoned :
    syncLeft 2 unsent = true ∧ (fun _ s => .ok s : Boundary) Ctx.foreground unsent = .ok unsent ∧ polled.undisturbed = true ∧
    (∀ j ∈ [0, 1], j < polled.job.length) ∧ 2 ∉ [0, 1] :=
  ⟨by decide +kernel, rfl, by decide +kernel⟩

theorem eq_ok_of_isOk {α : Type} (d : α) {r : Res α} (h : r.isOk = true) : r = .ok (valueOf d r) := by
  cases r with
  | ok a => rfl
  | error e => cases h

/-- A synchronous transfer of job `j` on unit `u` with two answers waiting. -/
def syncRunOf (u j : Nat) (vs : List Word) : Res (Option Nat × State) :=
  syncJobTransfer (deliver 0) Ctx.foreground j 10 (received u vs polled)

/-- Continuous chip select on unit 2, none on unit 0. -/
theorem witness_SyncChipSelectContinuity :
    (answered.undisturbed = true ∧ answered.tablesOk = true ∧ answered.drvInit = true ∧ 2 < answered.cfg.numJobs ∧
      (answered.cfg.jobAt 2).dev.contCS = true) ∧
    syncRunOf 2 2 [0xA1A2, 0xB1B2] = .ok (some 8, (valueOf (none, polled) (syncRunOf 2 2 [0xA1A2, 0xB1B2])).2) ∧
    (polled.cfg.jobAt 0).dev.contCS = false ∧
    syncRunOf 0 0 [1, 2, 3, 4] = .ok (some 6, (valueOf (none, polled) (syncRunOf 0 0 [1, 2, 3, 4])).2) :=
  ⟨by decide +kernel, by decide +kernel, by decide +kernel, by decide +kernel⟩

theorem witness_LockJobsAllOrNothing :
    (lockJobs 0 flying).1 = false ∧ (lockJobs 0 polled).1 = true ∧ (∀ j ∈ (polled.cfg.seqAt 0).jobs, j < polled.job.length) ∧
    2 ∉ (polled.cfg.seqAt 0).jobs := by decide +kernel

theorem witness_AsyncTransmitStartsTheFirstJob :
    polled.undisturbed = true ∧ polled.tablesOk = true ∧ polled.params.level ≠ .syncOnly ∧ polled.drvInit = true ∧
    (0 : BitVec 16).toNat < polled.cfg.numSeqs ∧ polled.seqIsSync (0 : BitVec 16).toNat = false ∧
    (polled.seqAt (0 : BitVec 16).toNat).result ≠ .pending ∧ (polled.cfg.seqAt (0 : BitVec 16).toNat).jobs = 0 :: [1] ∧
    (0 :: [1]).Nodup ∧ (∀ i ∈ 0 :: [1], (polled.jobAt i).owner = none) ∧ (polled.unitAt (polled.unitOf 0)).status = .idle ∧
    polled.jobReady 0 = true := by decide +kernel

/-- Unit 0 busy with another sequence, whose jobs wait at priorities 3 and 2. -/
def queuedUp : State := (claimOrEnqueue 8 (claimOrEnqueue 7 (after (.asyncTransmit 4) armed)).2).2

theorem witness_AsyncTransmitQueuesOnABusyUnit :
    (queuedUp.undisturbed = true ∧ queuedUp.tablesOk = true ∧ queuedUp.params.level ≠ .syncOnly ∧ queuedUp.drvInit = true ∧
      (0 : BitVec 16).toNat < queuedUp.cfg.numSeqs ∧ queuedUp.seqIsSync (0 : BitVec 16).toNat = false ∧
      (queuedUp.seqAt (0 : BitVec 16).toNat).result ≠ .pending ∧ (queuedUp.cfg.seqAt (0 : BitVec 16).toNat).jobs = 0 :: [1] ∧
      (0 :: [1]).Nodup ∧ (∀ i ∈ 0 :: [1], (queuedUp.jobAt i).owner = none) ∧
      (queuedUp.unitAt (queuedUp.unitOf 0)).status = .busy) ∧
    (queuedUp.unitAt (queuedUp.unitOf 0)).tailAt (queuedUp.cfg.jobAt 0).priority = some 8 ∧
    ∀ i, (queuedUp.unitAt (queuedUp.unitOf 0)).tailAt (queuedUp.cfg.jobAt 0).priority = some i →
      i ∉ 0 :: [1] ∧ i < queuedUp.job.length := by
  have h : (queuedUp.unitAt (queuedUp.unitOf 0)).tailAt (queuedUp.cfg.jobAt 0).priority = some 8 := by decide +kernel
  refine ⟨by decide +kernel, h, ?_⟩
  intro i hi
  rw [h] at hi
  cases hi
  decide +kernel

/-- Jobs of several channels: unit 0 a master with FIFO, unit 1 a slave, unit 2 with DMA on channels 4 and 5. Channel 0 has one frame,
channel 2 more than the FIFO holds, channel 3 is an external one without a receive buffer. -/
def several : Cfg :=
  { units := [fifoUnit, { fifoUnit with slave := true }, { fifoUnit with dmaUsed := true, dmaTxCh := 4, dmaRxCh := 5 }]
    channels := [{ ibChan 0x1000 0x1010 0 with maxLength := 1 }, { ibChan 0x1020 0x1030 0 with width := .w16 },
      { ibChan 0x1040 0x1050 1 with maxLength := 6 }, ebChan 2000, ibChan 0x1060 0x1070 1]
    jobs := [{ jobOn 0 0 2 { plainDev with contCS := true } with channels := [0, 1] }, jobOn 0 0 1 { plainDev with contCS := true },
      jobOn 2 1 0 plainDev, { jobOn 1 2 1 plainDev with channels := [1, 3] }, jobOn 4 1 0 plainDev]
    seqs := [seqOf [0, 3], seqOf [1], seqOf [2], seqOf [3]]
    seqPool := 0
    chanPool := 0 }

/-- `several` in interrupt mode, ready to transmit. -/
def mixed : State := after (.setupEb 3 0x4000 0 1200) (after (.setAsyncMode .interrupt) (started several))

theorem witness_FifoJobStart :
    polled.undisturbed = true ∧ polled.tablesOk = true ∧ polled.drvInit = true ∧ 0 < polled.cfg.numJobs ∧ 0 = polled.unitOf 0 ∧
    (polled.cfg.unitAt 0).dmaUsed = false ∧ polled.jobReady 0 = true ∧ 0 = polled.chanOf 0 0 ∧
    false = (polled.cfg.jobAt 0).dev.contCS ∧ (polled.cfg.unitAt 0).slave = false ∧
    (polled.lpspiAt 0).txCount + 1 ≤ polled.params.fifoSize ∧ txFrameValue polled 0 (polled.widthOf 0) 0 = .ok 0xFF ∧
    1 < (polled.chanAt 0).length := by decide +kernel

/-- A one-frame first channel, with and without a next one; a slave's fill of more and of as much as the channel has. -/
theorem witness_FifoJobStart_boundaries :
    (mixed.undisturbed = true ∧ mixed.tablesOk = true ∧ mixed.drvInit = true ∧ (mixed.chanAt 0).length = 1 ∧
      txFrameValue mixed 0 (mixed.widthOf 0) 0 = .ok 0xFF) ∧
    (mixed.jobReady 1 = true ∧ 0 = mixed.unitOf 1 ∧ mixed.numChannelsOf 1 = 1 ∧ 0 = mixed.chanOf 1 0) ∧
    (mixed.jobReady 0 = true ∧ 0 = mixed.unitOf 0 ∧ 1 < mixed.numChannelsOf 0 ∧ 1 = mixed.chanOf 0 1) ∧
    (mixed.jobReady 2 = true ∧ 1 = mixed.unitOf 2 ∧ (mixed.cfg.unitAt 1).slave = true ∧ 2 = mixed.chanOf 2 0 ∧
      4 = min (mixed.chanAt 2).length mixed.params.fifoSize ∧ 4 < (mixed.chanAt 2).length ∧
      (mixed.lpspiAt 1).txCount + 4 ≤ mixed.params.fifoSize ∧
      ∀ i, i < 4 → txFrameValue mixed 2 (mixed.widthOf 2) i = .ok 0xFF) ∧
    mixed.jobReady 4 = true ∧ 4 = min (mixed.chanAt 4).length mixed.params.fifoSize ∧ 4 = (mixed.chanAt 4).length := by decide +kernel

/-- Job 0 of `several` in flight, its transmit side at channel `k` with one frame left, its receive side too. -/
def atBoundary (k : Nat) : State :=
  let s := received 0 [0x77] (after (.asyncTransmit 0) mixed)
  s.setDev 0 { s.devAt 0 with txChanIdx := k, rxChanIdx := k, txRemaining := 1, rxRemaining := 1 }

theorem witness_FifoChannelBoundaries :
    ((atBoundary 0).undisturbed = true ∧ (atBoundary 0).tablesOk = true ∧ (atBoundary 0).drvInit = true ∧
      0 < (atBoundary 0).cfg.numJobs ∧ 0 = (atBoundary 0).unitOf 0 ∧ ((atBoundary 0).devAt 0).curJob = some 0 ∧
      0 = (atBoundary 0).chanOf 0 ((atBoundary 0).devAt 0).txChanIdx ∧ ((atBoundary 0).devAt 0).sentFrames < 65535 ∧
      ((atBoundary 0).lpspiAt 0).txCount < (atBoundary 0).params.fifoSize ∧
      txFrameValue (atBoundary 0) 0 ((atBoundary 0).widthOf 0) ((atBoundary 0).txIndex 0 0) = .ok 0xFF ∧
      ((atBoundary 0).devAt 0).txChanIdx + 1 < (atBoundary 0).numChannelsOf 0 ∧ 0 < ((atBoundary 0).chanAt 1).length ∧
      (atBoundary 0).chanReady 0 = true ∧ (atBoundary 0).memOk = true ∧ ((atBoundary 0).lpspiAt 0).rxFifo = 0x77 :: [] ∧
      ((atBoundary 0).devAt 0).rxChanIdx + 1 < (atBoundary 0).numChannelsOf 0) ∧
    (atBoundary 1).undisturbed = true ∧ (atBoundary 1).tablesOk = true ∧ 1 = (atBoundary 1).chanOf 0 ((atBoundary 1).devAt 0).txChanIdx ∧
    txFrameValue (atBoundary 1) 1 ((atBoundary 1).widthOf 1) ((atBoundary 1).txIndex 0 1) = .ok 0x1FF ∧
    ((atBoundary 1).devAt 0).txChanIdx + 1 = (atBoundary 1).numChannelsOf 0 ∧ ((atBoundary 1).devAt 0).contCSActive = true ∧
    (atBoundary 1).chanReady 1 = true ∧ ((atBoundary 1).devAt 0).rxChanIdx + 1 = (atBoundary 1).numChannelsOf 0 := by decide +kernel

theorem witness_DmaJobStart :
    (polled.undisturbed = true ∧ polled.tablesOk = true ∧ polled.drvInit = true ∧ 3 < polled.cfg.numJobs ∧ 1 = polled.unitOf 3 ∧
      (polled.cfg.unitAt 1).dmaUsed = true ∧ 3 = polled.chanOf 3 0 ∧ 0 < (polled.chanAt 3).length ∧ polled.buffersOverlap 3 = false) ∧
    polled.sendsFrom 3 (.mem 0x4000) 2 ∧ polled.keepsAt 3 (.mem 0x6000) 2 ∧
    (mixed.undisturbed = true ∧ mixed.tablesOk = true ∧ mixed.drvInit = true ∧ 2 = mixed.unitOf 3 ∧ 1 = mixed.chanOf 3 0 ∧
      mixed.buffersOverlap 3 = false) ∧
    mixed.sendsFrom 1 (.defaultWord 1) 0 ∧ mixed.sendsFrom 3 (.mem 0x4000) 2 ∧ mixed.keepsAt 3 .discardWord 0 :=
  ⟨by decide +kernel, .inr ⟨0x4000, by decide +kernel⟩, .inr ⟨0x6000, by decide +kernel⟩, by decide +kernel,
    .inl (by decide +kernel), .inr ⟨0x4000, by decide +kernel⟩, .inl (by decide +kernel)⟩

/-- The external channels 2 and 3 receive where they send from. -/
def clashing : State := after (.setupEb 3 0x4000 0x4000 2) (after (.setupEb 2 0x2200 0x2202 2) polled)

theorem witness_UntransferableJobsAreRefused :
    clashing.undisturbed = true ∧ clashing.tablesOk = true ∧ clashing.drvInit = true ∧ clashing.params.level ≠ .syncOnly ∧
    (2 : BitVec 16).toNat < clashing.cfg.numSeqs ∧ (clashing.seqAt (2 : BitVec 16).toNat).result ≠ .pending ∧
    (clashing.cfg.seqAt (2 : BitVec 16).toNat).jobs = 3 :: [] ∧ clashing.seqIsSync (2 : BitVec 16).toNat = false ∧
    (3 :: []).Nodup ∧ (∀ i ∈ 3 :: [], (clashing.jobAt i).owner = none) ∧ (clashing.unitAt (clashing.unitOf 3)).status = .idle ∧
    clashing.buffersOverlap 3 = true ∧
    (started small).buffersOverlap 3 = false ∧ ((started small).chanAt ((started small).chanOf 3 0)).length = 0 ∧
    (clashing.params.level ≠ .asyncOnly ∧ clashing.seqIsSync (1 : BitVec 16).toNat = true ∧
      (clashing.cfg.seqAt (1 : BitVec 16).toNat).jobs = 2 :: [] ∧ (clashing.seqAt (1 : BitVec 16).toNat).result ≠ .pending ∧
      clashing.syncBusyMask &&& clashing.usedUnits (1 : BitVec 16).toNat = 0 ∧ clashing.buffersOverlap 2 = true) ∧
    (started small).buffersOverlap 2 = false ∧ ((started small).chanAt ((started small).chanOf 2 0)).length = 0 := by decide +kernel

/-- Unit 0 busy, its lists empty. -/
def occupied : State := polled.setUnitStatus 0 .busy

theorem witness_PriorityOrder :
    [5, 6, 7, 8].Nodup ∧ (∀ j ∈ [5, 6, 7, 8], j < polled.job.length ∧ polled.unitOf j = 0) ∧ 0 < polled.unit.length ∧
    (polled.cfg.jobAt 5).priority = 3 ∧ (polled.cfg.jobAt 6).priority = 1 ∧ (polled.cfg.jobAt 7).priority = 3 ∧
    (polled.cfg.jobAt 8).priority = 2 ∧ (polled.unitAt 0).head = [none, none, none, none] ∧
    (polled.unitAt 0).tail = [none, none, none, none] ∧ (polled.unitAt 0).maxPrio = -1 ∧ (polled.unitAt 0).status = .idle ∧
    (occupied.unitAt 0).status = .busy ∧ (occupied.unitAt 0).maxPrio = -1 ∧ (∀ j ∈ [5, 6, 7, 8], occupied.unitOf j = 0) := by
  decide +kernel

theorem witness_PopTakesTheHighestLevel :
    (0 < occupied.unit.length ∧ (occupied.unitAt 0).ok = true ∧ ∀ p, p < 4 → (occupied.unitAt 0).headAt p = none) ∧
    (queuedUp.unitAt 0).ok = true ∧ (queuedUp.unitAt 0).headAt 3 = some 7 ∧ 7 < queuedUp.job.length ∧
    (∀ p', 3 < p' → p' < 4 → (queuedUp.unitAt 0).headAt p' = none) ∧
    ((claimOrEnqueue 6 occupied).2.unitAt 0).ok = true ∧ ((claimOrEnqueue 6 occupied).2.unitAt 0).headAt 1 = some 6 ∧
    (∀ p', p' < 4 → 1 < p' → ((claimOrEnqueue 6 occupied).2.unitAt 0).headAt p' = none) ∧
    ((claimOrEnqueue 5 queuedUp).2.unitAt 0).ok = true ∧ ((claimOrEnqueue 5 queuedUp).2.unitAt 0).headAt 3 = some 7 ∧
    ((claimOrEnqueue 5 queuedUp).2.jobAt 7).next = some 5 := by
  refine ⟨by decide +kernel, by decide +kernel, by decide +kernel, by decide +kernel, fun p h1 h2 => by omega, by decide +kernel,
    by decide +kernel, by decide +kernel, by decide +kernel⟩

/-- Sequence 0 on its second job. -/
def secondJob (s : State) : State := (s.setUnitStatus 0 .busy).setSeq 0 { result := .pending, remainingJobs := 1, cursor := 1 }
/-- The small configuration with sequence 0 interruptible. -/
def yielding : Cfg := { small with seqs := { seqOf [0, 1] with interruptible := true } :: small.seqs.drop 1 }

theorem witness_SequenceGoesOn :
    ((secondJob polled).undisturbed = true ∧ (secondJob polled).tablesOk = true ∧ (secondJob polled).drvInit = true ∧
      0 < (secondJob polled).cfg.numSeqs ∧ ((secondJob polled).unitAt 0).status = .busy ∧
      1 = tget ((secondJob polled).cfg.seqAt 0).jobs ((secondJob polled).seqAt 0).cursor ∧ (secondJob polled).unitOf 1 = 0 ∧
      (secondJob polled).jobReady 1 = true ∧ ((secondJob polled).cfg.seqAt 0).interruptible = false) ∧
    ((secondJob (buffered (started yielding))).tablesOk = true ∧
      ((secondJob (buffered (started yielding))).unitAt 0).head = [none, none, none, none] ∧
      ((secondJob (buffered (started yielding))).unitAt 0).tail = [none, none, none, none] ∧
      ((secondJob (buffered (started yielding))).unitAt 0).maxPrio = -1 ∧
      ((secondJob (buffered (started yielding))).cfg.seqAt 0).interruptible = true ∧
      (secondJob (buffered (started yielding))).jobReady 1 = true) ∧
    ((flying.jobAt 0).owner = some 0 ∧ (flying.seqAt 0).result ≠ .cancelled ∧ (flying.seqAt 0).remainingJobs = 1 + 1 ∧
      (flying.seqAt 0).cursor < 65535) ∧
    ((secondJob mixed).undisturbed = true ∧ (secondJob mixed).tablesOk = true ∧ (secondJob mixed).drvInit = true ∧
      3 = tget ((secondJob mixed).cfg.seqAt 0).jobs ((secondJob mixed).seqAt 0).cursor ∧ (secondJob mixed).unitOf 3 = 2 ∧
      ((secondJob mixed).unitAt 0).maxPrio < 0 ∧ ((secondJob mixed).unitAt 2).status = .idle ∧ (secondJob mixed).jobReady 3 = true) ∧
    ((secondJob (after (.asyncTransmit 3) mixed)).unitAt 2).status ≠ .idle ∧
    (secondJob (after (.asyncTransmit 3) mixed)).undisturbed = true := by decide +kernel

theorem witness_UnlockRemainingJobs :
    (flying.jobAt 0).owner = some 0 ∧ 0 ∈ [0, 1] ∧ (flying.jobAt 2).owner ≠ some 0 := by decide +kernel

theorem witness_CancelMarksTheSequence :
    polled.params.level ≠ .syncOnly ∧ polled.drvInit = true ∧ (1 : BitVec 16).toNat < polled.cfg.numSeqs ∧
    polled.seqIsSync (1 : BitVec 16).toNat = true ∧ (polled.seqAt (0 : BitVec 16).toNat).result ≠ .pending ∧
    flying.drvInit = true ∧ flying.seqIsSync (0 : BitVec 16).toNat = false ∧
    (flying.seqAt (0 : BitVec 16).toNat).result = .pending ∧ flying.slaveInFlight (0 : BitVec 16).toNat = false := by decide +kernel

/-- A job in flight on the slave unit. -/
def slaveFlying : State := after (.asyncTransmit 3) armed
/-- The same with the module busy. -/
def slaveStuck : State := slaveFlying.setLpspi 3 { slaveFlying.lpspiAt 3 with mbf := true }

theorem witness_CancelStopsASlave :
    slaveFlying.undisturbed = true ∧ slaveFlying.tablesOk = true ∧ slaveFlying.params.level ≠ .syncOnly ∧ slaveFlying.drvInit = true ∧
    (3 : BitVec 16).toNat < slaveFlying.cfg.numSeqs ∧ slaveFlying.seqIsSync (3 : BitVec 16).toNat = false ∧
    (slaveFlying.seqAt (3 : BitVec 16).toNat).result = .pending ∧ 4 = slaveFlying.cursorJob (3 : BitVec 16).toNat ∧
    3 = slaveFlying.unitOf 4 ∧ slaveFlying.slaveInFlight (3 : BitVec 16).toNat = true ∧ (slaveFlying.lpspiAt 3).mbf = false ∧
    (slaveFlying.jobAt 4).owner = some (3 : BitVec 16).toNat ∧
    0 < (slaveFlying.seqAt (3 : BitVec 16).toNat).remainingJobs ∧ (slaveFlying.unitAt 3).maxPrio < 0 ∧
    slaveStuck.undisturbed = true ∧ slaveStuck.tablesOk = true ∧ slaveStuck.slaveInFlight (3 : BitVec 16).toNat = true ∧
    (slaveStuck.lpspiAt 3).mbf = true := by decide +kernel

/-- `flying` with a frame received. -/
def oneIn : State := received 0 [0x5A] flying

theorem witness_FifoEventMovesOneFrame :
    oneIn.undisturbed = true ∧ oneIn.tablesOk = true ∧ oneIn.memOk = true ∧ oneIn.fifoServed (0 : BitVec 4).toNat = true ∧
    oneIn.midChannel (0 : BitVec 4).toNat 0 0 0 ∧ (oneIn.lpspiAt (0 : BitVec 4).toNat).rxFifo = 0x5A :: [] := by
  unfold State.midChannel
  decide +kernel

/-- The last frame of sequence 4 has arrived, all frames sent. -/
def lastIn : State :=
  let s := received 0 [0x177, 0x11] (after (.asyncTransmit 4) armed)
  s.setDev 0 { s.devAt 0 with txDone := true, txRemaining := 0, rxRemaining := 1 }

theorem witness_LastFrameFinishesTheSequence :
    lastIn.undisturbed = true ∧ lastIn.tablesOk = true ∧ lastIn.memOk = true ∧ lastIn.fifoServed (0 : BitVec 4).toNat = true ∧
    (lastIn.cfg.unitAt (0 : BitVec 4).toNat).slave = false ∧ (lastIn.devAt (0 : BitVec 4).toNat).curJob = some 5 ∧
    5 < lastIn.cfg.numJobs ∧ lastIn.unitOf 5 = (0 : BitVec 4).toNat ∧ (lastIn.devAt (0 : BitVec 4).toNat).txDone = true ∧
    (lastIn.devAt (0 : BitVec 4).toNat).rxDone = false ∧ 0 = lastIn.chanOf 5 (lastIn.devAt (0 : BitVec 4).toNat).rxChanIdx ∧
    (lastIn.devAt (0 : BitVec 4).toNat).rxChanIdx + 1 = lastIn.numChannelsOf 5 ∧
    (lastIn.devAt (0 : BitVec 4).toNat).rxRemaining = 1 ∧ lastIn.chanReady 0 = true ∧
    (lastIn.lpspiAt (0 : BitVec 4).toNat).rxFifo = 0x177 :: [0x11] ∧ (lastIn.jobAt 5).result ≠ .ok ∧
    (lastIn.jobAt 5).owner = some 4 ∧ 4 < lastIn.cfg.numSeqs ∧ (lastIn.seqAt 4).result ≠ .cancelled ∧
    (lastIn.seqAt 4).remainingJobs = 0 + 1 ∧ (lastIn.unitAt (0 : BitVec 4).toNat).maxPrio < 0 ∧
    (after (.cancel 4) lastIn).undisturbed = true ∧ (after (.cancel 4) lastIn).tablesOk = true ∧
    (after (.cancel 4) lastIn).fifoServed (0 : BitVec 4).toNat = true ∧ ((after (.cancel 4) lastIn).jobAt 5).owner = some 4 ∧
    ((after (.cancel 4) lastIn).devAt (0 : BitVec 4).toNat).rxRemaining = 1 ∧
    ((after (.cancel 4) lastIn).seqAt 4).result = .cancelled ∧ ((after (.cancel 4) lastIn).seqAt 4).remainingJobs = 0 + 1 := by
  decide +kernel

/-- The same with sequence 0 waiting for the unit. -/
def lastInBefore0 : State :=
  let s := received 0 [0x177] (after (.asyncTransmit 0) (after (.asyncTransmit 4) armed))
  s.setDev 0 { s.devAt 0 with txDone := true, txRemaining := 0, rxRemaining := 1 }
/-- `EV_FIFO(0)` presented there. -/
def handingOver : State := lastInBefore0.withFetchWord 8 0x10

theorem handingOver_steps : step handingOver = .next (nextOf (step handingOver)) := eq_next_of_answersNext (by decide +kernel)

theorem witness_StepKeepsScheduling :
    handingOver.tablesOk = true ∧ handingOver.queuesOk = true ∧ handingOver.schedOk = true ∧
    (∀ x s', nextStimulus handingOver = some (x, s') → s'.noProcedureWaits = true) ∧
    step handingOver = .next (nextOf (step handingOver)) :=
  ⟨by decide +kernel, by decide +kernel, by decide +kernel, fun _ _ h => by cases h; decide +kernel, handingOver_steps⟩

/-- The unit is handed to the waiting job, and the scheduling is in order. -/
theorem test_evFifo_hands_the_unit_over : (nextOf (step handingOver)).schedOk = true ∧
    ((nextOf (step handingOver)).devAt 0).curJob = some 0 ∧ ((nextOf (step handingOver)).seqAt 4).result = .ok := by decide +kernel

/-- The slave has received its channel; four frames wait to be sent, three more have come in. -/
def overflowing : State :=
  let s := received 3 [1, 2, 3] slaveFlying
  (s.setDev 3 { s.devAt 3 with rxDone := true, rxRemaining := 0, txDone := false }).setLpspi 3
    { s.lpspiAt 3 with txFifo := List.replicate 4 (.frame 0xFF) }

theorem witness_SlaveDispatch :
    ((draining armed).undisturbed = true ∧ (draining armed).tablesOk = true ∧ (draining armed).fifoServed (3 : BitVec 4).toNat = true ∧
      (draining armed).memOk = true ∧ (draining armed).midSlave (3 : BitVec 4).toNat 4 4 4 2 1) ∧
    overflowing.undisturbed = true ∧ overflowing.tablesOk = true ∧ overflowing.fifoServed (3 : BitVec 4).toNat = true ∧
    (overflowing.cfg.unitAt (3 : BitVec 4).toNat).slave = true ∧ (overflowing.devAt (3 : BitVec 4).toNat).curJob = some 4 ∧
    (overflowing.devAt (3 : BitVec 4).toNat).rxDone = true ∧ (overflowing.devAt (3 : BitVec 4).toNat).txDone = false ∧
    overflowing.params.fifoSize ≤ (overflowing.lpspiAt (3 : BitVec 4).toNat).txCount ∧
    2 = min (overflowing.lpspiAt (3 : BitVec 4).toNat).rxFifo.length ((overflowing.cfg.channelAt (overflowing.chanOf 4 0)).wmRx + 1) := by
  unfold State.midSlave
  decide +kernel

theorem witness_DmaCompletionReloads :
    1 = (1 : BitVec 4).toNat ∧ (passDone 4 dmaFlying).tablesOk = true ∧ ((passDone 4 dmaFlying).devAt 1).curJob = some 3 ∧
    4 = ((passDone 4 dmaFlying).cfg.unitAt 1).dmaTxCh ∧ (passDone 4 dmaFlying).dmaServed 1 4 = true ∧
    ((passDone 4 dmaFlying).devAt 1).txDone = false ∧ 0 < ((passDone 4 dmaFlying).devAt 1).remainingData ∧
    (passDone 5 dmaFlying).tablesOk = true ∧ 5 = ((passDone 5 dmaFlying).cfg.unitAt 1).dmaRxCh ∧
    (passDone 5 dmaFlying).dmaServed 1 5 = true ∧ ((passDone 5 dmaFlying).devAt 1).rxDone = false ∧
    0 < ((passDone 5 dmaFlying).devAt 1).receivedData := by decide +kernel

/-- Job 3 of `several` in flight, both sides done with its first channel. -/
def nextChannel : State := passDone 5 (passDone 4 (after (.asyncTransmit 3) mixed))

theorem witness_DmaCompletionReloads_nextChannel :
    (2 = (2 : BitVec 4).toNat ∧ nextChannel.tablesOk = true ∧ (nextChannel.devAt 2).curJob = some 3 ∧ nextChannel.undisturbed = true ∧
      nextChannel.dmaServed 2 4 = true ∧ nextChannel.dmaServed 2 5 = true ∧ (nextChannel.devAt 2).txDone = false ∧
      (nextChannel.devAt 2).rxDone = false ∧ (nextChannel.devAt 2).remainingData = 0 ∧ (nextChannel.devAt 2).receivedData = 0 ∧
      (nextChannel.devAt 2).txChanIdx + 1 < nextChannel.numChannelsOf 3 ∧ (nextChannel.devAt 2).rxChanIdx + 1 < nextChannel.numChannelsOf 3 ∧
      3 = nextChannel.chanOf 3 ((nextChannel.devAt 2).txChanIdx + 1) ∧ 0 < (nextChannel.chanAt 3).length ∧ 3 < nextChannel.cfg.numJobs) ∧
    nextChannel.sendsFrom 3 (.mem 0x4000) 2 ∧ nextChannel.keepsAt 3 .discardWord 0 :=
  ⟨by decide +kernel, .inr ⟨0x4000, by decide +kernel⟩, .inl (by decide +kernel)⟩

/-- The last transmit pass of the DMA job is done. -/
def lastTxPass : State :=
  let s := passDone 4 dmaFlying
  s.setDev 1 { s.devAt 1 with remainingData := 0 }
/-- The transmit side is done, and so is the last receive pass. -/
def lastRxPass : State :=
  let s := passDone 5 dmaFlying
  s.setDev 1 { s.devAt 1 with receivedData := 0, txDone := true }

theorem witness_DmaLastPass :
    (lastTxPass.undisturbed = true ∧ lastTxPass.tablesOk = true ∧ (lastTxPass.devAt (1 : BitVec 4).toNat).curJob = some 3 ∧
      4 = (lastTxPass.cfg.unitAt (1 : BitVec 4).toNat).dmaTxCh ∧ lastTxPass.dmaServed (1 : BitVec 4).toNat 4 = true ∧
      (lastTxPass.devAt (1 : BitVec 4).toNat).remainingData = 0 ∧
      lastTxPass.numChannelsOf 3 ≤ (lastTxPass.devAt (1 : BitVec 4).toNat).txChanIdx + 1 ∧
      (lastTxPass.devAt (1 : BitVec 4).toNat).rxDone = false ∧ (lastTxPass.devAt (1 : BitVec 4).toNat).contCSActive = true) ∧
    lastRxPass.undisturbed = true ∧ lastRxPass.tablesOk = true ∧ (lastRxPass.devAt (1 : BitVec 4).toNat).curJob = some 3 ∧
    5 = (lastRxPass.cfg.unitAt (1 : BitVec 4).toNat).dmaRxCh ∧ lastRxPass.dmaServed (1 : BitVec 4).toNat 5 = true ∧
    (lastRxPass.devAt (1 : BitVec 4).toNat).receivedData = 0 ∧
    lastRxPass.numChannelsOf 3 ≤ (lastRxPass.devAt (1 : BitVec 4).toNat).rxChanIdx + 1 ∧
    (lastRxPass.devAt (1 : BitVec 4).toNat).txDone = true ∧ 3 < lastRxPass.cfg.numJobs ∧ lastRxPass.unitOf 3 = (1 : BitVec 4).toNat ∧
    (lastRxPass.jobAt 3).result ≠ .ok ∧ (lastRxPass.jobAt 3).owner = some 2 ∧ 2 < lastRxPass.cfg.numSeqs ∧
    (lastRxPass.seqAt 2).result ≠ .cancelled ∧ (lastRxPass.seqAt 2).remainingJobs = 1 ∧
    (lastRxPass.unitAt (1 : BitVec 4).toNat).maxPrio < 0 ∧ (lastRxPass.devAt (1 : BitVec 4).toNat).irqEnabled = false := by
  decide +kernel

theorem witness_DmaControlActions : (5 : Nat) ≠ 4 := by decide

/-- The last frame of the buffer is the source; the DMA job is in its last iteration. -/
def atTheEnd : State :=
  dmaFlying.setDma 4 { dmaFlying.dmaAt 4 with curSrc := .mem 0x495E, iterLeft := 1 }

theorem witness_DmaEngineMoves :
    dmaFlying.tablesOk = true ∧ dmaFlying.drvInit = true ∧ 1 < dmaFlying.cfg.numUnits ∧ 4 = (dmaFlying.cfg.unitAt 1).dmaTxCh ∧
    (dmaFlying.cfg.unitAt 0).dmaUsed = false ∧ (dmaFlying.cfg.unitAt 1).dmaUsed = true ∧ (dmaFlying.dmaAt 4).active = true ∧
    0 < (dmaFlying.dmaAt 4).iterLeft ∧ 0 < dmaFlying.txRoom 1 ∧ (dmaFlying.dmaAt 4).curSrc = .mem 0x4000 ∧
    dmaFlying.handedOver 0x4000 (dmaFlying.dmaAt 4).tcd.size = true ∧ 0x4000 + (dmaFlying.dmaAt 4).tcd.size ≤ addressCount ∧
    (0 : Word) = BitVec.ofNat 32 (memRead dmaFlying.mem 0x4000 (dmaFlying.dmaAt 4).tcd.size) ∧
    (atTheEnd.dmaAt 4).curSrc = .mem 0x495E ∧ atTheEnd.handedOver 0x495E (atTheEnd.dmaAt 4).tcd.size = true ∧
    atTheEnd.handedOver 0x4960 (atTheEnd.dmaAt 4).tcd.size = false ∧
    5 = (dmaFlying.cfg.unitAt 1).dmaRxCh ∧ (dmaFlying.dmaAt 5).active = true ∧ 0 < (dmaFlying.dmaAt 5).iterLeft ∧
    ((received 1 [0xA1A2] dmaFlying).lpspiAt 1).rxFifo = 0xA1A2 :: [] ∧ (dmaFlying.dmaAt 5).curDst = .mem 0x6000 ∧
    dmaFlying.handedOver 0x6000 (dmaFlying.dmaAt 5).tcd.size = true ∧ dmaFlying.handedOver 0x6960 (dmaFlying.dmaAt 5).tcd.size = false ∧
    0x6000 + (dmaFlying.dmaAt 5).tcd.size ≤ addressCount ∧ dmaFlying.memOk = true ∧ (dmaFlying.dmaAt 5).tcd.size = 2 := by
  decide +kernel

theorem witness_ChunkArithmetic : 127 + 1 < (65535 + 510) / 511 ∧ (511 + 510) / 511 = 1 ∧ (512 + 510) / 511 = 2 := by decide +kernel

/-- A frame in the shifter of unit 0, whose receive FIFO of four frames is full. -/
def noRoom : State := received 0 [1, 2, 3, 4] shifting

theorem witness_PeripheralContract :
    (flying.lpspiAt 0).txCount < flying.params.fifoSize ∧ (oneIn.lpspiAt 0).rxFifo = 0x5A :: [] ∧
    (({ Lpspi.powerOn with txFifo := [.frame 1] } : Lpspi).txFifo = .frame 1 :: [] ∧
      ({ Lpspi.powerOn with txFifo := [.frame 1] } : Lpspi).shifting = none ∧
      ({ Lpspi.powerOn with txFifo := [.frame 1] } : Lpspi).rxCount < 4) ∧
    ((shifting.lpspiAt 0).shifting = some 0xFF ∧ (shifting.lpspiAt 0).rxCount < 4) ∧
    (4 ≤ (noRoom.lpspiAt 0).rxCount ∧ (noRoom.lpspiAt 0).shifting = some 0xFF ∧
      4 ≤ ((received 0 [1, 2, 3, 4] flying).lpspiAt 0).rxCount ∧
      ((received 0 [1, 2, 3, 4] flying).lpspiAt 0).shifting = none ∧
      ((received 0 [1, 2, 3, 4] flying).lpspiAt 0).txFifo = .frame 0xFF :: []) ∧
    (Lpspi.powerOn.txFifo = ([] : List Word).map .frame ∧ [(7 : Word)].length = ((none : Option Word).toList ++ []).length + 1 ∧
      ([] : List Word).length < 4 ∧ Lpspi.powerOn.rxFifo.length + [(7 : Word)].length ≤ 4) ∧
    (shifting.lpspiAt 0).txFifo = ([] : List Word).map .frame ∧
    [(7 : Word), 8].length = ((some (0xFF : Word)).toList ++ []).length + 1 ∧
    (shifting.lpspiAt 0).rxFifo.length + [(7 : Word), 8].length ≤ 4 := by decide +kernel

theorem witness_FrameOperands :
    (polled.chanAt 0).useDefault = true ∧ (polled.chanAt 2).useDefault = false ∧ (polled.chanAt 2).txPtr = some 0x2200 ∧
    1 < (polled.chanAt 2).length ∧ (polled.chanAt 2).length ≤ 2 ∧
    frameAddr 0x2200 (polled.widthOf 2) 1 + bpf (polled.widthOf 2) ≤ addressCount ∧ ((started small).chanAt 2).discardRx = true ∧
    (polled.chanAt 2).discardRx = false ∧ (polled.chanAt 2).rxPtr = some 0x2300 ∧ polled.memOk = true ∧
    frameAddr 0x2300 (polled.widthOf 2) 1 + bpf (polled.widthOf 2) ≤ addressCount := by decide +kernel

end Sys2Proof.Tests
end

/-! SUPPORT and PROOFS of the scope family: what every step keeps of the unit masks (00_scope.md R19), of the parameters and the trace
(R9, R13) and of the 16-bit counters (R15, R21). Each is a predicate that the primitive updates keep, lifted to the step by `Closed`. -/

namespace Sys2Proof.Machine

/-! What the shared updates leave alone -/

/-- A move outside the ports builds a configuration for the host, or leaves the block's own state alone (20_memory.md R111). -/
theorem agentMove_cases {x : Stimulus} {s t : State} (h : agentMove x s = .ok t) :
    (∃ a c, t = hostBuild a c s) ∨ SameBlock s t := by
  by_cases hx : ∃ a c, x = .hostConfig a c
  · obtain ⟨a, c, rfl⟩ := hx
    cases h; exact .inl ⟨a, c, rfl⟩
  · exact .inr (agentMove_sameBlock (fun a c e => hx ⟨a, c, e⟩) h)

/-- The append of `CS3` writes queues and jobs only (45_scheduler.md R340). -/
theorem enqueue_frame (j : Nat) (s : State) : ∃ us js, enqueue j s = { s with unit := us, job := js } := by
  simp only [enqueue]
  split <;> exact ⟨_, _, rfl⟩

/-- The segment `CS4` writes queues and jobs only (45_scheduler.md R342). -/
theorem popNext_frame {u : Nat} {n : Option Nat} {s t : State} (h : popNext u s = .ok (n, t)) :
    ∃ us js, t = { s with unit := us, job := js } := by
  simp only [popNext] at h
  split at h
  · cases h; exact ⟨_, _, rfl⟩
  · split at h
    · cases h
    · cases h; exact ⟨_, _, rfl⟩

/-! What a well-formed configuration says of its parts (10_state.md R31 to R35, 40_lifecycle_buffers_queries.md R172) -/

section
variable {p : Params} {c : Cfg} (hwf : cfgWellFormed p c = true)
include hwf

/-- The parts that bound numbers of the configuration. -/
theorem cfgWellFormed_parts : sizesOk p c = true ∧ (∀ ch ∈ c.channels, channelOk p ch = true) ∧
    (∀ j ∈ c.jobs, jobOk c j = true) ∧ ∀ q ∈ c.seqs, seqOk c q = true := by
  simp only [cfgWellFormed, Bool.and_eq_true, List.all_eq_true] at hwf
  obtain ⟨⟨⟨⟨⟨⟨⟨hsizes, -⟩, hchannels⟩, hjobs⟩, hseqs⟩, -⟩, -⟩, -⟩ := hwf
  exact ⟨hsizes, hchannels, hjobs, hseqs⟩

theorem cfgWellFormed_numUnits_le : c.numUnits ≤ 13 := by
  obtain ⟨hsizes, -⟩ := cfgWellFormed_parts hwf
  simp only [sizesOk, Bool.and_eq_true, decide_eq_true_eq] at hsizes
  omega

theorem cfgWellFormed_maxLength_le {ch : ChannelCfg} (hch : ch ∈ c.channels) : ch.maxLength ≤ 65535 := by
  obtain ⟨-, hchannels, -⟩ := cfgWellFormed_parts hwf
  have hok := hchannels ch hch
  simp only [channelOk, Bool.and_eq_true, decide_eq_true_eq] at hok
  omega

theorem cfgWellFormed_hwUnit_lt {j : Nat} (hj : j < c.numJobs) : (c.jobAt j).hwUnit < c.numUnits := by
  obtain ⟨-, -, hjobs, -⟩ := cfgWellFormed_parts hwf
  have hok := hjobs (c.jobAt j) (tget_mem c.jobs j hj)
  simp only [jobOk, Bool.and_eq_true, decide_eq_true_eq] at hok
  omega

theorem cfgWellFormed_jobCount_le {q : SeqCfg} (hq : q ∈ c.seqs) : q.jobs.length ≤ 65535 := by
  obtain ⟨-, -, -, hseqs⟩ := cfgWellFormed_parts hwf
  have hok := hseqs q hq
  simp only [seqOk, Bool.and_eq_true, decide_eq_true_eq] at hok
  omega

theorem cfgWellFormed_job_lt {q : SeqCfg} (hq : q ∈ c.seqs) {j : Nat} (hj : j ∈ q.jobs) : j < c.numJobs := by
  obtain ⟨-, -, -, hseqs⟩ := cfgWellFormed_parts hwf
  have hok := hseqs q hq
  simp only [seqOk, Bool.and_eq_true, List.all_eq_true, decide_eq_true_eq] at hok
  obtain ⟨⟨-, hjobs⟩, -⟩ := hok
  exact hjobs j hj

end

/-! The unit masks (00_scope.md R19) -/

theorem maskOk_iff {m : Word} : maskOk m = true ↔ m.toNat < 2 ^ 13 := decide_eq_true_iff

theorem masksOk_iff {s : State} :
    s.masksOk = true ↔ maskOk s.syncBusyMask = true ∧ s.seqUsedHWUnits.all maskOk = true := by
  rw [State.masksOk, Bool.and_eq_true]

theorem maskOk_zero : maskOk 0 = true := rfl

theorem maskOk_or {a b : Word} (ha : maskOk a = true) (hb : maskOk b = true) : maskOk (a ||| b) = true := by
  rw [maskOk_iff] at *
  rw [BitVec.toNat_or]
  exact Nat.or_lt_two_pow ha hb

theorem maskOk_and_left {a : Word} (ha : maskOk a = true) (b : Word) : maskOk (a &&& b) = true := by
  rw [maskOk_iff] at *
  rw [BitVec.toNat_and]
  exact Nat.lt_of_le_of_lt Nat.and_le_left ha

theorem one_shiftLeft_toNat {u : Nat} (hu : u < 32) : (1#32 <<< u).toNat = 2 ^ u := by
  have hlt : 2 ^ u < 2 ^ 32 := Nat.pow_lt_pow_right (by decide) hu
  rw [BitVec.toNat_shiftLeft, Nat.shiftLeft_eq, BitVec.toNat_ofNat, Nat.one_mod_two_pow (by decide), Nat.one_mul,
    Nat.mod_eq_of_lt hlt]

/-- The bit of one of the 13 units. -/
theorem maskOk_one_shiftLeft {u : Nat} (hu : u < 13) : maskOk (1#32 <<< u) = true := by
  rw [maskOk_iff, one_shiftLeft_toNat (by omega)]
  exact Nat.pow_lt_pow_right (by decide) hu

/-- The bits of the first `n` of the 13 units. -/
theorem maskOk_firstUnits {n : Nat} (hn : n ≤ 13) : maskOk ((1#32 <<< n) - 1) = true := by
  have hone := one_shiftLeft_toNat (u := n) (by omega)
  have hpos : 0 < 2 ^ n := Nat.two_pow_pos n
  have hle : 2 ^ n ≤ 2 ^ 13 := Nat.pow_le_pow_right (by decide) hn
  rw [maskOk_iff, BitVec.toNat_sub_of_le (by rw [BitVec.le_def, hone]; exact hpos), hone]
  exact Nat.lt_of_lt_of_le (Nat.sub_lt hpos (by decide)) hle

theorem maskOk_unitMask {c : Cfg} {js : List Nat} (h : ∀ j ∈ js, (c.jobAt j).hwUnit < 13) : maskOk (unitMask c js) = true := by
  induction js with
  | nil => exact maskOk_zero
  | cons j rest ih =>
    exact maskOk_or (maskOk_one_shiftLeft (h j List.mem_cons_self)) (ih fun k hk => h k (List.mem_cons_of_mem j hk))

/-- What `INIT` computes for a sequence of a well-formed configuration (44_sync_transmit.md R301). -/
theorem maskOk_usedUnitsOf {p : Params} {c : Cfg} {q : SeqCfg} (hwf : cfgWellFormed p c = true) (hq : q ∈ c.seqs) :
    maskOk (usedUnitsOf p c q) = true := by
  have hunits := cfgWellFormed_numUnits_le hwf
  unfold usedUnitsOf
  split
  · refine maskOk_unitMask fun j hj => ?_
    have hu := cfgWellFormed_hwUnit_lt hwf (cfgWellFormed_job_lt hwf hq hj)
    omega
  · exact maskOk_firstUnits hunits

theorem masksOk_initTables {c : Cfg} {s : State} (hwf : cfgWellFormed s.params c = true) : (initTables c s).masksOk = true := by
  refine masksOk_iff.2 ⟨maskOk_zero, List.all_eq_true.2 fun m hm => ?_⟩
  obtain ⟨q, hq, rfl⟩ := List.mem_map.1 hm
  exact maskOk_usedUnitsOf hwf hq

theorem masksOk_claimSync {s : State} (h : s.masksOk = true) (q : Nat) : (claimSync q s).masksOk = true := by
  obtain ⟨hbusy, hused⟩ := masksOk_iff.1 h
  exact masksOk_iff.2 ⟨maskOk_or hbusy (tget_of_all hused maskOk_zero q), hused⟩

theorem masksOk_releaseSync {s : State} (h : s.masksOk = true) (q : Nat) (failed : Bool) :
    (releaseSync q failed s).masksOk = true := by
  obtain ⟨hbusy, hused⟩ := masksOk_iff.1 h
  exact masksOk_iff.2 ⟨maskOk_and_left hbusy _, hused⟩

theorem SameBlock.masksOk {s t : State} (h : SameBlock s t) : t.masksOk = s.masksOk := by
  simp only [State.masksOk, h.syncBusyMask, h.seqUsedHWUnits]

theorem masksOk_agentMove {x : Stimulus} {s t : State} (h : agentMove x s = .ok t) (hs : s.masksOk = true) : t.masksOk = true := by
  obtain ⟨a, c, rfl⟩ | hst := agentMove_cases h
  · exact hs
  · rw [hst.masksOk]; exact hs

theorem masksOk_hwClosed : HwClosed fun s => s.masksOk = true where
  move _ _ _ := masksOk_agentMove
  inputs _ _ h := h
  emit _ _ h := h
  poke _ _ _ h := h
  setDma _ _ _ h := h
  setBase _ _ _ h := h

theorem masksOk_closed : Closed fun s => s.masksOk = true where
  move _ _ _ := masksOk_agentMove
  inputs _ _ h := h
  raised _ _ h := h
  emit _ _ h := h
  poke _ _ _ h := h
  pop s u h := by rw [(popRx_sameBlock s u).masksOk]; exact h
  soil _ _ h := h
  setDma _ _ _ h := h
  setDev _ _ _ _ h := h
  setJob _ _ _ h := h
  setSeq _ _ _ _ h := h
  setChan _ _ _ _ h := h
  store _ _ _ _ _ _ hst h := by rw [(rxStoreFrame_sameBlock hst).masksOk]; exact h
  copy _ _ _ _ _ _ _ h := h
  unitStatus _ _ _ h := h
  enqueue s j h := by obtain ⟨us, js, he⟩ := enqueue_frame j s; rw [he]; exact h
  popNext _ _ _ _ hp h := by obtain ⟨us, js, rfl⟩ := popNext_frame hp; exact h
  claim _ q h := masksOk_claimSync h q
  release _ q f h := masksOk_releaseSync h q f
  init _ _ _ hwf hi _ := by
    obtain ⟨m, hm, rfl⟩ := masksOk_hwClosed.initWith hi (masksOk_initTables hwf)
    exact hm
  deinit _ h := h

/-- Settles O9: the masks are written by `INIT`, whose well-formed configuration has at most 13 units, by the claim of `CS1`, an OR of
two masks, and by the release of `CS2`, which only clears bits. -/
theorem stepKeepsUnitMasks : Obligations.StepKeepsUnitMasks :=
  fun _ _ hs h => masksOk_closed.step h hs

/-! The parameters and the trace (00_scope.md R9, R13) -/

/-- `t` has the parameters of `s`, and its trace is that of `s` with entries appended. -/
structure Follows (s t : State) : Prop where
  params : t.params = s.params
  trace : ∃ es, t.trace = s.trace ++ es

theorem Follows.refl (s : State) : Follows s s := ⟨rfl, [], (List.append_nil _).symm⟩

theorem Follows.append {a s t : State} (h : Follows a s) (hp : t.params = s.params) {es : List Entry}
    (ht : t.trace = s.trace ++ es) : Follows a t := by
  obtain ⟨es', he⟩ := h.trace
  exact ⟨hp.trans h.params, es' ++ es, by rw [ht, he, List.append_assoc]⟩

theorem Follows.same {a s t : State} (h : Follows a s) (hp : t.params = s.params) (ht : t.trace = s.trace) : Follows a t :=
  h.append hp (es := []) (by rw [ht, List.append_nil])

theorem Follows.emit {a s : State} (h : Follows a s) (e : Entry) : Follows a (s.emit e) := h.append rfl rfl

theorem popRx_trace (s : State) (u : Nat) : (s.popRx u).2.trace = s.trace := by
  unfold State.popRx; split <;> rfl

theorem dmaCount_trace (s : State) (u ch : Nat) (k : BitVec 4) : (s.dmaCount u ch k).trace = s.trace := by
  simp only [State.dmaCount]
  split
  · split <;> rfl
  · rfl

theorem dmaPut_trace (s : State) (u ch : Nat) (v : Word) : (dmaPut s u ch v).trace = s.trace ++ [.dmaWrite u v] :=
  dmaCount_trace _ _ _ _

theorem dmaTaken_trace (s : State) (u ch : Nat) : (dmaTaken s u ch).trace = s.trace := dmaCount_trace _ _ _ _

/-- A transmit move of the DMA engine sends out nothing, or the frame it writes (42_engine_dma.md R268). -/
theorem dmaTxMove_trace {u : Nat} {s t : State} (h : dmaTxMove u s = .ok t) : ∃ es, t.trace = s.trace ++ es := by
  simp only [dmaTxMove] at h
  split at h
  · split at h
    · cases h; exact ⟨_, dmaPut_trace _ _ _ _⟩
    · split at h
      · cases h
      · split at h
        · cases h
        · cases h; exact ⟨_, dmaPut_trace _ _ _ _⟩
    · cases h; exact (Follows.refl s).trace
  · cases h; exact (Follows.refl s).trace

/-- A receive move of the DMA engine sends out nothing, or the frame it reads (R268). -/
theorem dmaRxMove_trace {u : Nat} {s t : State} (h : dmaRxMove u s = .ok t) : ∃ es, t.trace = s.trace ++ es := by
  have hread : ∀ v, ((s.popRx u).2.emit (.dmaRead u v)).trace = s.trace ++ [.dmaRead u v] := fun v => by
    rw [emit_trace, popRx_trace]
  simp only [dmaRxMove] at h
  split at h
  · split at h
    · cases h; exact ⟨_, (dmaTaken_trace _ _ _).trans (hread _)⟩
    · split at h
      · cases h
      · split at h
        · cases h
        · cases h; exact ⟨_, (dmaTaken_trace _ _ _).trans (hread _)⟩
    · cases h; exact (Follows.refl s).trace
  · cases h; exact (Follows.refl s).trace

theorem agentMove_trace {x : Stimulus} {s t : State} (h : agentMove x s = .ok t) : ∃ es, t.trace = s.trace ++ es := by
  cases x with
  | dmaTx u => exact dmaTxMove_trace h
  | dmaRx u => exact dmaRxMove_trace h
  | clockIn u v =>
    simp only [agentMove] at h
    split at h <;> cases h <;> exact (Follows.refl s).trace
  | port | take | shift | setBusy | hwReset | hostStore | hostConfig => cases h; exact (Follows.refl s).trace

theorem agentMove_params {x : Stimulus} {s t : State} (h : agentMove x s = .ok t) : t.params = s.params := by
  obtain ⟨a, c, rfl⟩ | hst := agentMove_cases h
  · rfl
  · exact hst.params

theorem Follows.agentMove {a s t : State} {x : Stimulus} (h : agentMove x s = .ok t) (hs : Follows a s) : Follows a t := by
  obtain ⟨es, he⟩ := agentMove_trace h
  exact hs.append (agentMove_params h) he

theorem rxStoreFrame_trace {s t : State} {c i : Nat} {w : Width} {v : Word} (h : rxStoreFrame s c w i v = .ok t) :
    t.trace = s.trace := by
  obtain rfl | ⟨_, _, _, _, _, _, rfl⟩ := rxStoreFrame_cases h <;> rfl

theorem follows_hwClosed (a : State) : HwClosed (Follows a) where
  move _ _ _ := Follows.agentMove
  inputs _ _ h := h.same rfl rfl
  emit _ e h := h.emit e
  poke _ _ _ h := h.same rfl rfl
  setDma _ _ _ h := h.same rfl rfl
  setBase _ _ _ h := h.same rfl rfl

theorem follows_closed (a : State) : Closed (Follows a) where
  move _ _ _ := Follows.agentMove
  inputs _ _ h := h.same rfl rfl
  raised _ _ h := h.same rfl rfl
  emit _ e h := h.emit e
  poke _ _ _ h := h.same rfl rfl
  pop s u h := h.same (popRx_sameBlock s u).params (popRx_trace s u)
  soil _ _ h := h.same rfl rfl
  setDma _ _ _ h := h.same rfl rfl
  setDev _ _ _ _ h := h.same rfl rfl
  setJob _ _ _ h := h.same rfl rfl
  setSeq _ _ _ _ h := h.same rfl rfl
  setChan _ _ _ _ h := h.same rfl rfl
  store _ _ _ _ _ _ hst h := h.same (rxStoreFrame_sameBlock hst).params (rxStoreFrame_trace hst)
  copy _ _ _ _ _ _ _ h := h.same rfl rfl
  unitStatus _ _ _ h := h.same rfl rfl
  enqueue s j h := by obtain ⟨us, js, he⟩ := enqueue_frame j s; rw [he]; exact h.same rfl rfl
  popNext _ _ _ _ hp h := by obtain ⟨us, js, rfl⟩ := popNext_frame hp; exact h.same rfl rfl
  claim _ _ h := h.same rfl rfl
  release _ _ _ h := h.same rfl rfl
  init s _ c _ hi h := by
    obtain ⟨m, hm, rfl⟩ := (follows_hwClosed a).initWith hi (h.same (t := initTables c s) rfl rfl)
    exact hm.same rfl rfl
  deinit _ h := h.same rfl rfl

/-- Settles O12: no primitive update writes a parameter or takes an entry from the trace. -/
theorem stepKeepsParameters : Obligations.StepKeepsParameters := fun s _ h => by
  obtain ⟨hparams, htrace⟩ := (follows_closed s).step h (Follows.refl s)
  exact ⟨hparams, htrace⟩

/-! The 16-bit counters (00_scope.md R15, R21) -/

section
variable {s : State} (h : s.countersOk = true)
include h

theorem countersOk_setDev {u : Nat} {d : Dev} (hd : d.fits = true) : (s.setDev u d).countersOk = true := by
  obtain ⟨hchan, hdev, hseq, hchans, hseqs⟩ := countersOk_iff.1 h
  exact countersOk_iff.2 ⟨hchan, all_tset hdev hd, hseq, hchans, hseqs⟩

theorem countersOk_setSeq {q : Nat} {e : SeqState} (he : e.fits = true) : (s.setSeq q e).countersOk = true := by
  obtain ⟨hchan, hdev, hseq, hchans, hseqs⟩ := countersOk_iff.1 h
  exact countersOk_iff.2 ⟨hchan, hdev, all_tset hseq he, hchans, hseqs⟩

theorem countersOk_setChan {c : Nat} {v : ChanState} (hv : v.fits = true) : (s.setChan c v).countersOk = true := by
  obtain ⟨hchan, hdev, hseq, hchans, hseqs⟩ := countersOk_iff.1 h
  exact countersOk_iff.2 ⟨all_tset hchan hv, hdev, hseq, hchans, hseqs⟩

end

theorem countersOk_agentMove {x : Stimulus} {s t : State} (h : agentMove x s = .ok t) (hs : s.countersOk = true) :
    t.countersOk = true := by
  obtain ⟨a, c, rfl⟩ | hst := agentMove_cases h
  · exact hs
  · rw [hst.countersOk]; exact hs

/-- A property that `f` keeps and every entry has, every entry has after `mapFirst f`. -/
theorem all_mapFirst {α : Type} {p : α → Bool} {f : α → α} (hf : ∀ x, p x = true → p (f x) = true) {l : List α}
    (h : l.all p = true) (n : Nat) : (mapFirst f n l).all p = true := by
  induction l generalizing n with
  | nil => simp [mapFirst]
  | cons x rest ih =>
    cases n with
    | zero => exact h
    | succ n =>
      simp only [mapFirst, List.all_cons, Bool.and_eq_true] at h ⊢
      exact ⟨hf x h.1, ih h.2 n⟩

theorem initDev_fits (d : Dev) : (initDev d).fits = true := rfl

/-- A channel starts with its configured length, or with none (10_state.md R73). -/
theorem initChan_fits {c : ChannelCfg} (h : c.maxLength ≤ 65535) : (initChan c).fits = true := by
  unfold initChan
  split
  · exact chan_fits_iff.2 h
  · rfl

/-- The tables of a well-formed configuration start with 16-bit numbers (10_state.md R72 to R75). -/
theorem countersOk_initTables {c : Cfg} {s : State} (hwf : cfgWellFormed s.params c = true) (h : s.countersOk = true) :
    (initTables c s).countersOk = true := by
  obtain ⟨-, hdev, -⟩ := countersOk_iff.1 h
  have hlen : ∀ ch ∈ c.channels, ch.maxLength ≤ 65535 := fun _ => cfgWellFormed_maxLength_le hwf
  have hjobs : ∀ q ∈ c.seqs, q.jobs.length ≤ 65535 := fun _ => cfgWellFormed_jobCount_le hwf
  refine countersOk_iff.2 ⟨?chan, ?dev, ?seq, ?channels, ?seqs⟩
  case chan => exact List.all_eq_true.2 <| List.forall_mem_map.2 fun ch hch => initChan_fits (hlen ch hch)
  case dev => exact all_mapFirst (fun d _ => initDev_fits d) hdev _
  case seq => exact List.all_eq_true.2 <| List.forall_mem_map.2 fun _ _ => rfl
  case channels => exact List.all_eq_true.2 fun ch hch => fits16_eq_true.2 (hlen ch hch)
  case seqs => exact List.all_eq_true.2 fun q hq => fits16_eq_true.2 (hjobs q hq)

theorem countersOk_hwClosed : HwClosed fun s => s.countersOk = true where
  move _ _ _ := countersOk_agentMove
  inputs _ _ h := h
  emit _ _ h := h
  poke _ _ _ h := h
  setDma _ _ _ h := h
  setBase _ u _ h := countersOk_setDev h (devFits h u)

theorem countersOk_closed : Closed fun s => s.countersOk = true where
  move _ _ _ := countersOk_agentMove
  inputs _ _ h := h
  raised _ _ h := h
  emit _ _ h := h
  poke _ _ _ h := h
  pop s u h := by rw [(popRx_sameBlock s u).countersOk]; exact h
  soil _ _ h := h
  setDma _ _ _ h := h
  setDev _ _ _ hd h := countersOk_setDev h (hd h)
  setJob _ _ _ h := h
  setSeq _ _ _ he h := countersOk_setSeq h (he h)
  setChan _ _ _ hv h := countersOk_setChan h (hv h)
  store _ _ _ _ _ _ hst h := by rw [(rxStoreFrame_sameBlock hst).countersOk]; exact h
  copy _ _ _ _ _ _ _ h := h
  unitStatus _ _ _ h := h
  enqueue s j h := by obtain ⟨us, js, he⟩ := enqueue_frame j s; rw [he]; exact h
  popNext _ _ _ _ hp h := by obtain ⟨us, js, rfl⟩ := popNext_frame hp; exact h
  claim _ q h := countersOk_setSeq (q := q) h (seqFits h q)
  release _ q _ h := countersOk_setSeq (q := q) h (seqFits h q)
  init _ _ _ hwf hi h := by
    obtain ⟨m, hm, rfl⟩ := countersOk_hwClosed.initWith hi (countersOk_initTables hwf h)
    exact hm
  deinit _ h := h

/-- Settles O13: every number written in a counter comes from a well-formed configuration, from another counter, or from a count that
stops at 65535. -/
theorem stepKeepsCounters : Obligations.StepKeepsCounters :=
  fun _ _ hs h => countersOk_closed.step h hs

end Sys2Proof.Machine

/-! PROOFS of the state family: what every step keeps of buffer memory (10_state.md R70), of the unit queues (R61) and of the tables
(R36, R75); the peripheral (R68); the state after power-on (R71). -/

namespace Sys2Proof.Machine

/-! The state after power-on (10_state.md R71) -/

theorem reset_unit_uninit {u : Nat} (hu : u < 13) : (State.reset.unitAt u).status = .uninit := by
  have hmem : State.reset.unitAt u ∈ List.replicate 13 UnitQ.powerOn := tget_mem _ u hu
  rw [List.eq_of_mem_replicate hmem]
  rfl

/-- Nothing is presented and nothing is due. -/
theorem nextStimulus_reset : nextStimulus State.reset = none := by decide

/-- Settles O7. -/
theorem powerOn : Obligations.PowerOn := by
  refine ⟨rfl, fun u hu => reset_unit_uninit hu, ?status, ?waits, by decide, rfl⟩
  case status => rfl
  case waits => rw [step, nextStimulus_reset]

/-! Buffer memory (10_state.md R70, 20_memory.md R92) -/

theorem popRx_mem (s : State) (u : Nat) : (s.popRx u).2.mem = s.mem := by
  unfold State.popRx; split <;> rfl

theorem dmaCount_mem (s : State) (u ch : Nat) (k : BitVec 4) : (s.dmaCount u ch k).mem = s.mem := by
  simp only [State.dmaCount]
  split
  · split <;> rfl
  · rfl

theorem dmaTxMove_mem {u : Nat} {s t : State} (h : dmaTxMove u s = .ok t) : t.mem = s.mem := by
  simp only [dmaTxMove] at h
  split at h
  · split at h
    · cases h; exact dmaCount_mem _ _ _ _
    · split at h
      · cases h
      · split at h
        · cases h
        · cases h; exact dmaCount_mem _ _ _ _
    · cases h; rfl
  · cases h; rfl

theorem memOk_dmaRxMove {u : Nat} {s t : State} (h : dmaRxMove u s = .ok t) (hs : s.memOk = true) : t.memOk = true := by
  have hpop : Memory.wf (s.popRx u).2.mem = true := by rw [popRx_mem]; exact hs
  have htaken : ∀ m : State, Memory.wf m.mem = true → (dmaTaken m u (s.cfg.unitAt u).dmaRxCh).memOk = true := fun m hm => by
    rw [State.memOk, dmaTaken, dmaCount_mem]; exact hm
  simp only [dmaRxMove] at h
  split at h
  · split at h
    · cases h; exact htaken _ hpop
    · split at h
      · cases h
      · split at h
        · cases h
        · rename_i hstore
          cases h; exact htaken _ (storeBytes_wf hpop hstore)
    · cases h; exact hs
  · cases h; exact hs

theorem memOk_agentMove {x : Stimulus} {s t : State} (h : agentMove x s = .ok t) (hs : s.memOk = true) : t.memOk = true := by
  cases x with
  | dmaTx u => rw [State.memOk, dmaTxMove_mem h]; exact hs
  | dmaRx u => exact memOk_dmaRxMove h hs
  | hostStore a b => cases h; exact writeByte_wf hs _ _
  | clockIn u v =>
    simp only [agentMove] at h
    split at h <;> cases h <;> exact hs
  | port | take | shift | setBusy | hwReset | hostConfig => cases h; exact hs

theorem memOk_rxStoreFrame {s t : State} {c i : Nat} {w : Width} {v : Word} (h : rxStoreFrame s c w i v = .ok t)
    (hs : s.memOk = true) : t.memOk = true := by
  obtain rfl | ⟨_, _, _, _, _, hstore, rfl⟩ := rxStoreFrame_cases h
  · exact hs
  · exact storeBytes_wf hs hstore

theorem memOk_hwClosed : HwClosed fun s => s.memOk = true where
  move _ _ _ := memOk_agentMove
  inputs _ _ h := h
  emit _ _ h := h
  poke _ _ _ h := h
  setDma _ _ _ h := h
  setBase _ _ _ h := h

theorem memOk_closed : Closed fun s => s.memOk = true where
  move _ _ _ := memOk_agentMove
  inputs _ _ h := h
  raised _ _ h := h
  emit _ _ h := h
  poke _ _ _ h := h
  pop s u h := by rw [State.memOk, popRx_mem]; exact h
  soil _ _ h := h
  setDma _ _ _ h := h
  setDev _ _ _ _ h := h
  setJob _ _ _ h := h
  setSeq _ _ _ _ h := h
  setChan _ _ _ _ h := h
  store _ _ _ _ _ _ := memOk_rxStoreFrame
  copy _ _ _ _ _ _ hc h := copyFrames_wf h hc
  unitStatus _ _ _ h := h
  enqueue s j h := by obtain ⟨us, js, he⟩ := enqueue_frame j s; rw [he]; exact h
  popNext _ _ _ _ hp h := by obtain ⟨us, js, rfl⟩ := popNext_frame hp; exact h
  claim _ _ h := h
  release _ _ _ h := h
  init s _ c _ hi h := by
    obtain ⟨m, hm, rfl⟩ := memOk_hwClosed.initWith (s := s) (c := c) hi h
    exact hm
  deinit _ h := h

/-- Settles O8: memory is written one byte at a time, and a byte written keeps the canonical form. -/
theorem stepKeepsMemoryCanonical : Obligations.StepKeepsMemoryCanonical :=
  fun _ _ hs h => memOk_closed.step h hs

/-- A copy whose source or destination ends past the last address faults at the first byte that does not exist (20_memory.md R99). -/
theorem copyFrames_faults {m : Memory} {b n src dst : Nat}
    (h : src ≤ addressCount ∧ addressCount < src + n * b ∨ dst ≤ addressCount ∧ addressCount < dst + n * b) :
    copyFrames m b n src dst = .error (.fault .addressOutsideMemory) := by
  induction n generalizing m src dst with
  | zero => omega
  | succ n ih =>
    rw [Nat.succ_mul] at h
    simp only [copyFrames, loadBytes, storeBytes]
    by_cases hload : src + b ≤ addressCount
    · by_cases hstore : dst + b ≤ addressCount
      · simp only [if_pos hload, if_pos hstore]
        exact ih (by omega)
      · simp only [if_pos hload, if_neg hstore]
    · simp only [if_neg hload]

theorem toNat_lt_addressCount (a : Word) : a.toNat < addressCount := a.isLt

/-- Settles O25: both copies have the host's buffer at one end. -/
theorem copyPastMemoryFaults : Obligations.CopyPastMemoryFaults := by
  intro s k a0 hinit hk hkind hnull haligned _ hpast
  have ha0 : ¬ a0 = 0#32 := hnull
  have hrange : s.chanInRange k.toNat = true := decide_eq_true hk
  have halign : aligned a0 (s.widthOf k.toNat) = true := decide_eq_true haligned
  have hstart : a0.toNat ≤ addressCount := (toNat_lt_addressCount a0).le
  refine ⟨?read, fun hidle hbelow => ?write⟩
  case read =>
    have hcopy : copyFrames s.mem (bpf (s.widthOf k.toNat)) (s.chanAt k.toNat).length (s.cfg.channelAt k.toNat).ibRxAddr.toNat
        a0.toNat = .error (.fault .addressOutsideMemory) := copyFrames_faults (.inr ⟨hstart, hpast⟩)
    show outcome (cmdReadIb k.toNat a0 s) = _
    simp [cmdReadIb, hinit, hrange, hkind, ha0, halign, hcopy, outcome]
  case write =>
    have hapart : rangesOverlap a0.toNat (s.bufBytes k.toNat) (s.cfg.channelAt k.toNat).ibTxAddr.toNat (s.bufBytes k.toNat) = false := by
      simp only [rangesOverlap, Bool.and_eq_false_iff, decide_eq_false_iff_not]
      exact .inl (by omega)
    have hcopy : copyFrames s.mem (bpf (s.widthOf k.toNat)) (s.chanAt k.toNat).length a0.toNat
        (s.cfg.channelAt k.toNat).ibTxAddr.toNat = .error (.fault .addressOutsideMemory) := copyFrames_faults (.inl ⟨hstart, hpast⟩)
    show outcome (cmdWriteIb k.toNat a0 s) = _
    simp [cmdWriteIb, fillInternal, hinit, hrange, hkind, hidle, ha0, halign, hapart, hcopy, outcome]

/-! The peripheral (10_state.md R68) -/

/-- Frames of width `w` are cut to their low bits (00_scope.md R11). -/
theorem truncW_toNat (w : Width) (v : Word) : (truncW w v).toNat = v.toNat % 2 ^ w.bits := by
  cases w with
  | w8 => exact (BitVec.toNat_and v 0xFF).trans (Nat.and_two_pow_sub_one_eq_mod v.toNat 8)
  | w16 => exact (BitVec.toNat_and v 0xFFFF).trans (Nat.and_two_pow_sub_one_eq_mod v.toNat 16)
  | w32 => exact (Nat.mod_eq_of_lt v.isLt).symm

theorem countFrames_append (a b : List TxItem) : countFrames (a ++ b) = countFrames a + countFrames b := by
  induction a with
  | nil => exact (Nat.zero_add _).symm
  | cons x rest ih =>
    cases x with
    | cmd c => exact ih
    | frame v => simp only [List.cons_append, countFrames, ih]; omega

theorem countFrames_map_frame (xs : List Word) : countFrames (xs.map .frame) = xs.length := by
  induction xs with
  | nil => rfl
  | cons x rest ih => simp only [List.map_cons, countFrames, ih, List.length_cons]

/-- A frame written with room is appended (P1). -/
theorem write_txdata_of_room {fifoSize free : Nat} {p : Lpspi} (h : p.txCount < fifoSize) (v : Word) :
    p.write fifoSize free (.txdata v) = { p with txFifo := p.txFifo ++ [.frame v] } := if_pos h

/-- The frame `x` is the next to go out, with `rest` behind it in the transmit FIFO: in the shifter, or the oldest of the FIFO. -/
def Lpspi.sendsNext (p : Lpspi) (x : Word) (rest : List TxItem) : Prop :=
  p.shifting = some x ∧ p.txFifo = rest ∨ p.shifting = none ∧ p.txFifo = .frame x :: rest

/-- What a shift with room leaves: the frame out under the command word in force, `v` in, and the command words behind it in force
(P3, P5). -/
theorem shift_of_sendsNext {fifoSize : Nat} {p : Lpspi} {x : Word} {rest : List TxItem} (h : p.sendsNext x rest)
    (hroom : p.rxCount < fifoSize) (v : Word) :
    p.shift fifoSize v = settleFrom rest { p with
      txFifo := rest, shifting := none, rxFifo := p.rxFifo ++ [truncW p.shiftCmd.width v]
      wire := p.wire ++ [(p.shiftCmd, x)], csHeld := p.shiftCmd.cont } := by
  rw [Lpspi.shift, if_pos hroom]
  obtain ⟨hshift, hfifo⟩ | ⟨hshift, hfifo⟩ := h
  · rw [take_of_shifting hshift, Lpspi.answer, hshift, ← hfifo]
  · rw [take_of_frame hshift hfifo, Lpspi.answer]

/-- The frames `fs` go out under the command word `old`, and behind them a new command word `c` and the frame `y` (P5). -/
structure Lpspi.Sends (p : Lpspi) (old c : CmdWord) (fs : List Word) (y : Word) : Prop where
  first : ∀ x rest, fs = x :: rest → p.shiftCmd = old ∧ p.sendsNext x (rest.map .frame ++ [.cmd c, .frame y])
  last : fs = [] → p.shiftCmd = c ∧ p.sendsNext y []

/-- A peripheral with `fs` in its transmit FIFO sends them, then the new command word's frame: command words at the head have effect. -/
theorem sends_settleFrom {p : Lpspi} (hidle : p.shifting = none) (c : CmdWord) (fs : List Word) (y : Word) :
    (settleFrom (fs.map .frame ++ [.cmd c, .frame y]) p).Sends p.shiftCmd c fs y := by
  cases fs with
  | nil => exact ⟨fun _ _ h => (nomatch h), fun _ => ⟨rfl, .inr ⟨hidle, rfl⟩⟩⟩
  | cons x rest =>
    refine ⟨fun _ _ h => ?_, fun h => nomatch h⟩
    cases h
    exact ⟨rfl, .inr ⟨hidle, rfl⟩⟩

/-- A command word and a frame written behind the frames of a peripheral go out behind them (P5). -/
theorem sends_writes {fifoSize f f' : Nat} {p : Lpspi} {xs : List Word} (hfifo : p.txFifo = xs.map .frame)
    (hroom : xs.length < fifoSize) (c : CmdWord) (y : Word) :
    ((p.write fifoSize f (.txcmd c)).write fifoSize f' (.txdata y)).Sends p.shiftCmd c (p.shifting.toList ++ xs) y ∧
      ((p.write fifoSize f (.txcmd c)).write fifoSize f' (.txdata y)).wire = p.wire ∧
      ((p.write fifoSize f (.txcmd c)).write fifoSize f' (.txdata y)).rxFifo = p.rxFifo := by
  have hcount : countFrames (xs.map TxItem.frame ++ [.cmd c]) = xs.length := by
    rw [countFrames_append, countFrames_map_frame]; rfl
  cases hshift : p.shifting with
  | some x =>
    have hcmd : p.write fifoSize f (.txcmd c) = { p with txCmd := c, txFifo := xs.map .frame ++ [.cmd c] } := by
      rw [Lpspi.write, settle_of_shifting (p := { p with txCmd := c }) hshift, hfifo]
    rw [hcmd, write_txdata_of_room (by rw [Lpspi.txCount, hcount]; exact hroom)]
    refine ⟨⟨fun _ _ h => ?_, fun h => nomatch h⟩, rfl, rfl⟩
    cases h
    exact ⟨rfl, .inl ⟨hshift, List.append_assoc _ [TxItem.cmd c] [TxItem.frame y]⟩⟩
  | none =>
    have hcmd : p.write fifoSize f (.txcmd c) = settleFrom (xs.map .frame ++ [.cmd c]) { p with txCmd := c } := by
      rw [Lpspi.write, settle_of_idle (p := { p with txCmd := c }) hshift, hfifo]
    obtain ⟨c', k, l, hl, hc⟩ := settleFrom_frame (xs.map .frame ++ [.cmd c]) { p with txCmd := c }
    have hdata : settleFrom (xs.map .frame ++ [.cmd c, .frame y]) { p with txCmd := c } =
        { settleFrom (xs.map .frame ++ [.cmd c]) { p with txCmd := c } with
          txFifo := (settleFrom (xs.map .frame ++ [.cmd c]) { p with txCmd := c }).txFifo ++ [.frame y] } := by
      cases xs with
      | nil => rfl
      | cons x rest => simp [settleFrom]
    rw [hcmd, write_txdata_of_room (by rw [hl, Lpspi.txCount, hc, hcount]; exact hroom), ← hdata]
    refine ⟨sends_settleFrom (p := { p with txCmd := c }) hshift c xs y, ?_, ?_⟩ <;> cases xs <;> rfl

/-- Each frame goes out under the command word in force when it was written (P5). -/
theorem wire_of_sends {fifoSize : Nat} {old c : CmdWord} {fs : List Word} {y : Word} {vs : List Word} {p : Lpspi}
    (h : p.Sends old c fs y) (hlen : vs.length = fs.length + 1) (hroom : p.rxFifo.length + vs.length ≤ fifoSize) :
    (vs.foldl (fun q v => q.shift fifoSize v) p).wire = p.wire ++ fs.map (fun x => (old, x)) ++ [(c, y)] := by
  induction fs generalizing p vs with
  | nil =>
    obtain ⟨v, rfl⟩ : ∃ v, vs = [v] := List.length_eq_one_iff.1 hlen
    obtain ⟨hcmd, hnext⟩ := h.last rfl
    rw [List.foldl_cons, List.foldl_nil, shift_of_sendsNext hnext hroom, hcmd]
    simp only [settleFrom, List.map_nil, List.append_nil]
  | cons x rest ih =>
    obtain ⟨v, vs, rfl⟩ : ∃ v vs', vs = v :: vs' := List.exists_cons_of_length_eq_add_one hlen
    obtain ⟨hcmd, hnext⟩ := h.first x rest rfl
    rw [List.length_cons] at hroom
    rw [List.foldl_cons, shift_of_sendsNext hnext (show p.rxFifo.length < fifoSize by omega)]
    generalize hq : ({ p with
      txFifo := _, shifting := none, rxFifo := p.rxFifo ++ [truncW p.shiftCmd.width v]
      wire := p.wire ++ [(p.shiftCmd, x)], csHeld := p.shiftCmd.cont } : Lpspi) = q
    have hsends := sends_settleFrom (p := q) (by rw [← hq]) c rest y
    have hwire : (settleFrom (rest.map .frame ++ [.cmd c, .frame y]) q).wire = p.wire ++ [(old, x)] := by
      rw [← hcmd, ← hq]; cases rest <;> rfl
    have hrx : (settleFrom (rest.map .frame ++ [.cmd c, .frame y]) q).rxFifo.length = p.rxFifo.length + 1 := by
      rw [← hq]; cases rest <;> simp [settleFrom]
    rw [show q.shiftCmd = old by rw [← hcmd, ← hq]] at hsends
    rw [ih hsends (by simpa using hlen) (by rw [hrx]; omega), hwire, List.map_cons, List.append_assoc p.wire]
    rfl

/-- Settles O59. -/
theorem peripheralContract : Obligations.PeripheralContract := by
  refine ⟨?put, ?pop, ?taken, ?shift, ?flags, ?order⟩
  case put =>
    intro fifoSize free p v hroom
    rw [write_txdata_of_room hroom]
    exact ⟨rfl, countFrames_append p.txFifo [.frame v]⟩
  case pop =>
    intro s u v rest hfifo
    rw [State.popRx, hfifo]
    rfl
  case taken =>
    intro p x rest hidle hfifo
    rw [take_of_frame hidle hfifo]
    exact ⟨rfl, by rw [Lpspi.txCount, Lpspi.txCount, hfifo]; rfl⟩
  case shift =>
    intro fifoSize p v x rest hnext
    refine ⟨fun hfull => if_neg (by omega), fun hroom => ?_⟩
    have hframe : p.sendsNext x (if p.shifting = none then rest else p.txFifo) := by
      obtain hshift | ⟨hshift, hfifo⟩ := hnext
      · exact .inl ⟨hshift, by simp [hshift]⟩
      · exact .inr ⟨hshift, by simp [hshift, hfifo]⟩
    rw [shift_of_sendsNext hframe hroom]
    obtain ⟨c, k, l, hl, hc⟩ := settleFrom_frame (if p.shifting = none then rest else p.txFifo) { p with
      txFifo := if p.shifting = none then rest else p.txFifo, shifting := none
      rxFifo := p.rxFifo ++ [truncW p.shiftCmd.width v], wire := p.wire ++ [(p.shiftCmd, x)], csHeld := p.shiftCmd.cont }
    rw [hl]
    refine ⟨⟨_, truncW_toNat _ v, rfl⟩, ?_, rfl, rfl⟩
    rw [Lpspi.txCount, Lpspi.txCount, hc]
    obtain hshift | ⟨hshift, hfifo⟩ := hnext
    · simp [hshift]
    · simp [hshift, hfifo, countFrames]
  case flags =>
    intro p
    exact ⟨decide_eq_true_iff, decide_eq_true_iff⟩
  case order =>
    rintro fifoSize f f' p z xs y c vs rfl hfifo hlen hroom hrx
    obtain ⟨hsends, hwire, hrxFifo⟩ := sends_writes (f := f) (f' := f') hfifo hroom c y
    rw [wire_of_sends hsends hlen (by rw [hrxFifo]; exact hrx), hwire]

/-! The unit queues (00_scope.md R20, 10_state.md R61 (b), (c)) -/

/-- `UnitQ.ok`, part by part. -/
theorem UnitQ.ok_iff {q : UnitQ} : q.ok = true ↔
    q.head.length = 4 ∧ q.tail.length = 4 ∧ -1 ≤ q.maxPrio ∧ q.maxPrio ≤ 3 ∧
      ∀ p < 4, (q.headAt p).isSome = (q.tailAt p).isSome ∧ (q.maxPrio < p → q.headAt p = none) ∧
        ((p : Int) = q.maxPrio → (q.headAt p).isSome = true) := by
  simp only [UnitQ.ok, Bool.and_eq_true, decide_eq_true_eq, List.all_eq_true, List.mem_range, Bool.or_eq_true, Option.isNone_iff_eq_none]
  refine and_congr_right' <| and_congr_right' <| and_congr_right' <| and_congr_right' <| forall₂_congr fun p _ => ?_
  rw [and_assoc, ← Int.not_lt, ne_eq]
  exact and_congr_right' (and_congr imp_iff_not_or.symm imp_iff_not_or.symm)

theorem tget_tset {α : Type} [Inhabited α] {l : List α} {i : Nat} (h : i < l.length) (v : α) (j : Nat) :
    tget (tset l i v) j = if i = j then v else tget l j := by
  split
  · rename_i he; rw [← he, tget_tset_same l i v h]
  · rename_i he; exact tget_tset_ne l i j v he

/-- The queue after the append of `CS3` (45_scheduler.md R340). -/
def UnitQ.push (q : UnitQ) (p j : Nat) : UnitQ :=
  { q with
    head := if q.tailAt p = none then tset q.head p (some j) else q.head
    tail := tset q.tail p (some j)
    maxPrio := if q.maxPrio < (p : Int) then (p : Int) else q.maxPrio }

/-- The queue after the segment `CS4` took the head of level `p`, whose next job is `after` (45_scheduler.md R342). -/
def UnitQ.pop (q : UnitQ) (p : Nat) (after : Option Nat) : UnitQ :=
  { q with
    head := tset q.head p after
    tail := if after = none then tset q.tail p none else q.tail
    maxPrio := topLevel (tset q.head p after) (p + 1) }

theorem UnitQ.headAt_push {q : UnitQ} (h : q.ok = true) {p : Nat} (hp : p < 4) (j i : Nat) :
    (q.push p j).headAt i = if p = i ∧ q.tailAt p = none then some j else q.headAt i := by
  obtain ⟨hhead, -⟩ := UnitQ.ok_iff.1 h
  unfold UnitQ.headAt UnitQ.push
  by_cases ht : q.tailAt p = none
  · simp only [ht, if_true, and_true, tget_tset (show p < q.head.length by omega)]
  · simp only [ht, if_false, and_false]

theorem UnitQ.tailAt_push {q : UnitQ} (h : q.ok = true) {p : Nat} (hp : p < 4) (j i : Nat) :
    (q.push p j).tailAt i = if p = i then some j else q.tailAt i := by
  obtain ⟨-, htail, -⟩ := UnitQ.ok_iff.1 h
  exact tget_tset (by omega) _ _

theorem UnitQ.headAt_pop {q : UnitQ} (h : q.ok = true) {p : Nat} (hp : p < 4) (after : Option Nat) (i : Nat) :
    (q.pop p after).headAt i = if p = i then after else q.headAt i := by
  obtain ⟨hhead, -⟩ := UnitQ.ok_iff.1 h
  exact tget_tset (by omega) _ _

theorem UnitQ.tailAt_pop {q : UnitQ} (h : q.ok = true) {p : Nat} (hp : p < 4) (after : Option Nat) (i : Nat) :
    (q.pop p after).tailAt i = if p = i ∧ after = none then none else q.tailAt i := by
  obtain ⟨-, htail, -⟩ := UnitQ.ok_iff.1 h
  unfold UnitQ.tailAt UnitQ.pop
  by_cases ha : after = none
  · simp only [ha, if_true, and_true, tget_tset (show p < q.tail.length by omega)]
  · simp only [ha, if_false, and_false]

/-- The append keeps the queue in order: level `p` is not empty then, and the mark rises to it. -/
theorem UnitQ.push_ok {q : UnitQ} (h : q.ok = true) {p : Nat} (hp : p < 4) (j : Nat) : (q.push p j).ok = true := by
  obtain ⟨hhead, htail, hlow, hhigh, hlevels⟩ := UnitQ.ok_iff.1 h
  have hmax : (q.push p j).maxPrio = max q.maxPrio p := by
    show (if q.maxPrio < (p : Int) then (p : Int) else q.maxPrio) = _
    split <;> omega
  refine UnitQ.ok_iff.2 ⟨?_, by simp [UnitQ.push, htail], by omega, by omega, fun i hi => ?_⟩
  · simp only [UnitQ.push]; split <;> simp [hhead]
  · obtain ⟨hagree, habove, hat⟩ := hlevels i hi
    rw [hmax, UnitQ.headAt_push h hp, UnitQ.tailAt_push h hp]
    by_cases hip : p = i
    · subst hip
      have hsome : (if p = p ∧ q.tailAt p = none then some j else q.headAt p).isSome = true := by
        split
        · rfl
        · rename_i hne
          rw [hagree, Option.isSome_iff_ne_none]
          exact fun hn => hne ⟨rfl, hn⟩
      rw [if_pos rfl, hsome]
      exact ⟨rfl, fun hlt => absurd hlt (by omega), fun _ => rfl⟩
    · rw [if_neg fun hc => hip hc.1, if_neg hip]
      exact ⟨hagree, fun hlt => habove (by omega), fun he => hat (by omega)⟩

/-- What the search for the highest level finds (45_scheduler.md R342): nothing in the levels above it. -/
theorem topLevel_spec (head : List (Option Nat)) (n : Nat) :
    -1 ≤ topLevel head n ∧ topLevel head n < n ∧ (∀ p < n, topLevel head n < p → tget head p = none) ∧
      ∀ p : Nat, (p : Int) = topLevel head n → (tget head p).isSome = true := by
  induction n with
  | zero => exact ⟨Int.le_refl _, by simp [topLevel], fun p hp => absurd hp (by omega), fun p hp => absurd hp (by simp only [topLevel]; omega)⟩
  | succ n ih =>
    obtain ⟨hlow, hlt, habove, hat⟩ := ih
    simp only [topLevel]
    split
    · rename_i hsome
      refine ⟨by omega, by omega, fun p hp hgt => absurd hgt (by omega), fun p hp => ?_⟩
      rw [show p = n by omega]; exact hsome
    · rename_i hnone
      refine ⟨hlow, by omega, fun p hp hgt => ?_, hat⟩
      by_cases he : p = n
      · subst he; simpa using hnone
      · exact habove p (by omega) hgt

/-- Taking the head of the highest level keeps the queue in order. -/
theorem UnitQ.pop_ok {q : UnitQ} (h : q.ok = true) {p : Nat} (hp : (p : Int) = q.maxPrio) (after : Option Nat) :
    (q.pop p after).ok = true := by
  obtain ⟨hhead, htail, hlow, hhigh, hlevels⟩ := UnitQ.ok_iff.1 h
  have hp4 : p < 4 := by omega
  obtain ⟨hge, hle, habove, hat⟩ := topLevel_spec (tset q.head p after) (p + 1)
  have hmax : (q.pop p after).maxPrio = topLevel (tset q.head p after) (p + 1) := rfl
  refine UnitQ.ok_iff.2 ⟨by simp [UnitQ.pop, hhead], ?_, by omega, by omega, fun i hi => ⟨?_, ?_, ?_⟩⟩
  · simp only [UnitQ.pop]; split <;> simp [htail]
  · obtain ⟨hagree, -⟩ := hlevels i hi
    rw [UnitQ.headAt_pop h hp4, UnitQ.tailAt_pop h hp4]
    by_cases hip : p = i
    · subst hip
      cases after with
      | none => simp
      | some k =>
        obtain ⟨hagree, -, hsome⟩ := hlevels p hi
        simp [← hagree, hsome hp]
    · rw [if_neg hip, if_neg fun hc => hip hc.1, hagree]
  · intro hlt
    by_cases hip : i < p + 1
    · exact habove i hip hlt
    · obtain ⟨-, hnone, -⟩ := hlevels i hi
      rw [UnitQ.headAt_pop h hp4, if_neg (by omega)]
      exact hnone (by omega)
  · exact hat i

/-- Level `maxPrio` of a queue in order, when there is one. -/
theorem UnitQ.maxPrio_toNat_lt {q : UnitQ} (h : q.ok = true) (hneg : ¬ q.maxPrio < 0) :
    (q.maxPrio.toNat : Int) = q.maxPrio ∧ q.maxPrio.toNat < 4 := by
  obtain ⟨-, -, -, hhigh, -⟩ := UnitQ.ok_iff.1 h
  omega

theorem initUnit_ok : initUnit.ok = true := by decide

theorem queuesOk_iff {s : State} : s.queuesOk = true ↔
    s.unit.all UnitQ.ok = true ∧ (s.cfg.jobs.all fun j => decide (j.priority ≤ 3)) = true := by
  rw [State.queuesOk, Bool.and_eq_true]

theorem SameBlock.queuesOk {s t : State} (h : SameBlock s t) : t.queuesOk = s.queuesOk := by
  simp only [State.queuesOk, h.unit, h.cfg]

theorem queuesOk_agentMove {x : Stimulus} {s t : State} (h : agentMove x s = .ok t) (hs : s.queuesOk = true) : t.queuesOk = true := by
  obtain ⟨a, c, rfl⟩ | hst := agentMove_cases h
  · exact hs
  · rw [hst.queuesOk]; exact hs

theorem priority_le {s : State} (h : s.queuesOk = true) (j : Nat) : (s.cfg.jobAt j).priority ≤ 3 := by
  obtain ⟨-, hprio⟩ := queuesOk_iff.1 h
  exact of_decide_eq_true (tget_of_all (p := fun j : JobCfg => decide (j.priority ≤ 3)) hprio rfl j)

/-- A write in the table of queues keeps them in order when it does so for an entry in order. -/
theorem queuesOk_setUnit {s : State} (h : s.queuesOk = true) {u : Nat} {q : UnitQ} (hq : (s.unitAt u).ok = true → q.ok = true) :
    (s.setUnit u q).queuesOk = true := by
  obtain ⟨hunits, hprio⟩ := queuesOk_iff.1 h
  refine queuesOk_iff.2 ⟨?_, hprio⟩
  by_cases hu : u < s.unit.length
  · exact all_tset hunits (hq (List.all_eq_true.1 hunits _ (tget_mem s.unit u hu)))
  · rw [setUnit_unit, tset, List.set_eq_of_length_le (by omega)]; exact hunits

/-- The append of `CS3`: the jobs are linked first, then the queue takes the job. -/
theorem enqueue_eq (j : Nat) (s : State) : ∃ m : State, (∃ js, m = { s with job := js }) ∧
    enqueue j s = m.setUnit (s.unitOf j) ((s.unitAt (s.unitOf j)).push (s.cfg.jobAt j).priority j) := by
  simp only [enqueue]
  split <;> exact ⟨_, ⟨_, rfl⟩, rfl⟩

theorem queuesOk_enqueue {s : State} (h : s.queuesOk = true) (j : Nat) : (enqueue j s).queuesOk = true := by
  have hprio := priority_le h j
  obtain ⟨m, ⟨js, rfl⟩, he⟩ := enqueue_eq j s
  rw [he]
  exact queuesOk_setUnit (s := { s with job := js }) h fun hq => UnitQ.push_ok hq (by omega) j

/-- The segment `CS4`: the unit is idle, or the head of its highest list is taken (45_scheduler.md R342). -/
theorem popNext_cases {u : Nat} {n : Option Nat} {s t : State} (h : popNext u s = .ok (n, t)) :
    (s.unitAt u).maxPrio < 0 ∧ n = none ∧ t = s.setUnitStatus u .idle ∨
    ∃ j, ¬ (s.unitAt u).maxPrio < 0 ∧ (s.unitAt u).headAt (s.unitAt u).maxPrio.toNat = some j ∧ n = some j ∧
      t = ((s.setUnit u ((s.unitAt u).pop (s.unitAt u).maxPrio.toNat (s.jobAt j).next)).setJobNext j none).setJobResult j .pending := by
  simp only [popNext] at h
  split at h
  · cases h; exact .inl ⟨‹_›, rfl, rfl⟩
  · split at h
    · cases h
    · rename_i j hj
      cases h; exact .inr ⟨j, ‹_›, hj, rfl, rfl⟩

theorem queuesOk_popNext {u : Nat} {n : Option Nat} {s t : State} (h : popNext u s = .ok (n, t)) (hs : s.queuesOk = true) :
    t.queuesOk = true := by
  obtain ⟨-, -, rfl⟩ | ⟨j, hneg, -, -, rfl⟩ := popNext_cases h
  · exact queuesOk_setUnit hs id
  · exact queuesOk_setUnit hs fun hq => UnitQ.pop_ok hq (UnitQ.maxPrio_toNat_lt hq hneg).1 _

theorem cfgWellFormed_priority_le {p : Params} {c : Cfg} (hwf : cfgWellFormed p c = true) {j : JobCfg} (hj : j ∈ c.jobs) :
    j.priority ≤ 3 := by
  obtain ⟨-, -, hjobs, -⟩ := cfgWellFormed_parts hwf
  have hok := hjobs j hj
  simp only [jobOk, Bool.and_eq_true, decide_eq_true_eq] at hok
  omega

theorem queuesOk_initTables {c : Cfg} {s : State} (hwf : cfgWellFormed s.params c = true) (h : s.queuesOk = true) :
    (initTables c s).queuesOk = true := by
  obtain ⟨hunits, -⟩ := queuesOk_iff.1 h
  exact queuesOk_iff.2 ⟨all_mapFirst (fun _ _ => initUnit_ok) hunits _,
    List.all_eq_true.2 fun j hj => decide_eq_true (cfgWellFormed_priority_le hwf hj)⟩

theorem queuesOk_uninitUnits {s : State} (h : s.queuesOk = true) : (uninitUnits s).queuesOk = true := by
  obtain ⟨hunits, hprio⟩ := queuesOk_iff.1 h
  exact queuesOk_iff.2 ⟨all_mapFirst (p := UnitQ.ok) (f := fun q : UnitQ => { q with status := .uninit }) (fun _ hq => hq) hunits _, hprio⟩

theorem queuesOk_hwClosed : HwClosed fun s => s.queuesOk = true where
  move _ _ _ := queuesOk_agentMove
  inputs _ _ h := h
  emit _ _ h := h
  poke _ _ _ h := h
  setDma _ _ _ h := h
  setBase _ _ _ h := h

theorem queuesOk_closed : Closed fun s => s.queuesOk = true where
  move _ _ _ := queuesOk_agentMove
  inputs _ _ h := h
  raised _ _ h := h
  emit _ _ h := h
  poke _ _ _ h := h
  pop s u h := by rw [(popRx_sameBlock s u).queuesOk]; exact h
  soil _ _ h := h
  setDma _ _ _ h := h
  setDev _ _ _ _ h := h
  setJob _ _ _ h := h
  setSeq _ _ _ _ h := h
  setChan _ _ _ _ h := h
  store _ _ _ _ _ _ hst h := by rw [(rxStoreFrame_sameBlock hst).queuesOk]; exact h
  copy _ _ _ _ _ _ _ h := h
  unitStatus _ _ _ h := queuesOk_setUnit h id
  enqueue _ j h := queuesOk_enqueue h j
  popNext _ _ _ _ := queuesOk_popNext
  claim _ _ h := h
  release _ _ _ h := h
  init _ _ _ hwf hi h := by
    obtain ⟨m, hm, rfl⟩ := queuesOk_hwClosed.initWith hi (queuesOk_initTables hwf h)
    exact hm
  deinit _ h := queuesOk_uninitUnits h

/-- Settles O10: only `INIT`, the append of `CS3` and the removal of `CS4` write a queue, and each leaves it in order. -/
theorem stepKeepsQueues : Obligations.StepKeepsQueues :=
  fun _ _ hs h => queuesOk_closed.step h hs

/-! The tables (10_state.md R31 to R36, R60, R62, R75) -/

/-- The sizes of the tables, and what `INIT` computed while the driver is initialised. -/
theorem tablesOk_iff {s : State} : s.tablesOk = true ↔
    (s.unit.length = 13 ∧ s.dev.length = 13 ∧ s.lpspi.length = 13 ∧ s.chan.length = s.cfg.numChannels ∧
      s.job.length = s.cfg.numJobs ∧ s.seq.length = s.cfg.numSeqs) ∧
    (s.drvInit = true → cfgWellFormed s.params s.cfg = true ∧
      s.seqUsedHWUnits = s.cfg.seqs.map (usedUnitsOf s.params s.cfg) ∧ s.seqCache = seqCacheOf s.params s.cfg) := by
  simp only [State.tablesOk, Bool.and_eq_true, Bool.or_eq_true, Bool.not_eq_true', decide_eq_true_eq, and_assoc]
  cases s.drvInit <;> simp

/-- `t` has the sizes of the tables of `s`, and all else that `State.tablesOk` speaks of. -/
structure SameTables (s t : State) : Prop where
  params : t.params = s.params
  cfg : t.cfg = s.cfg
  drvInit : t.drvInit = s.drvInit
  used : t.seqUsedHWUnits = s.seqUsedHWUnits
  cache : t.seqCache = s.seqCache
  unit : t.unit.length = s.unit.length
  dev : t.dev.length = s.dev.length
  lpspi : t.lpspi.length = s.lpspi.length
  chan : t.chan.length = s.chan.length
  job : t.job.length = s.job.length
  seq : t.seq.length = s.seq.length

theorem SameTables.tablesOk {s t : State} (h : SameTables s t) : t.tablesOk = s.tablesOk := by
  simp only [State.tablesOk, h.params, h.cfg, h.drvInit, h.used, h.cache, h.unit, h.dev, h.lpspi, h.chan, h.job, h.seq]

/-- An update that leaves the tables' sizes alone keeps `State.tablesOk`. -/
theorem tablesOk_of_same {s t : State} (h : SameTables s t) (hs : s.tablesOk = true) : t.tablesOk = true := by
  rw [h.tablesOk]; exact hs

theorem SameTables.refl (s : State) : SameTables s s := by constructor <;> rfl

theorem SameTables.trans {a b c : State} (h : SameTables a b) (h' : SameTables b c) : SameTables a c where
  params := h'.params.trans h.params
  cfg := h'.cfg.trans h.cfg
  drvInit := h'.drvInit.trans h.drvInit
  used := h'.used.trans h.used
  cache := h'.cache.trans h.cache
  unit := h'.unit.trans h.unit
  dev := h'.dev.trans h.dev
  lpspi := h'.lpspi.trans h.lpspi
  chan := h'.chan.trans h.chan
  job := h'.job.trans h.job
  seq := h'.seq.trans h.seq

/-- The moves of other hardware write the table of peripherals entry by entry. -/
theorem SameBlock.sameTables {s t : State} (h : SameBlock s t) (hl : t.lpspi.length = s.lpspi.length) : SameTables s t where
  params := h.params
  cfg := h.cfg
  drvInit := h.drvInit
  used := h.seqUsedHWUnits
  cache := h.seqCache
  unit := by rw [h.unit]
  dev := by rw [h.dev]
  lpspi := hl
  chan := by rw [h.chan]
  job := by rw [h.job]
  seq := by rw [h.seq]

theorem popRx_lpspi_length (s : State) (u : Nat) : (s.popRx u).2.lpspi.length = s.lpspi.length := by
  unfold State.popRx; split
  · exact tset_length _ _ _
  · rfl

theorem dmaCount_lpspi (s : State) (u ch : Nat) (k : BitVec 4) : (s.dmaCount u ch k).lpspi = s.lpspi := by
  simp only [State.dmaCount]
  split
  · split <;> rfl
  · rfl

theorem dmaPut_lpspi_length (s : State) (u ch : Nat) (v : Word) : (dmaPut s u ch v).lpspi.length = s.lpspi.length := by
  rw [dmaPut, dmaCount_lpspi]
  exact tset_length _ _ _

theorem dmaTxMove_lpspi_length {u : Nat} {s t : State} (h : dmaTxMove u s = .ok t) : t.lpspi.length = s.lpspi.length := by
  simp only [dmaTxMove] at h
  split at h
  · split at h
    · cases h; exact dmaPut_lpspi_length _ _ _ _
    · split at h
      · cases h
      · split at h
        · cases h
        · cases h; exact dmaPut_lpspi_length _ _ _ _
    · cases h; rfl
  · cases h; rfl

theorem dmaRxMove_lpspi_length {u : Nat} {s t : State} (h : dmaRxMove u s = .ok t) : t.lpspi.length = s.lpspi.length := by
  have htaken : ∀ m : State, m.lpspi = (s.popRx u).2.lpspi →
      (dmaTaken m u (s.cfg.unitAt u).dmaRxCh).lpspi.length = s.lpspi.length := fun m hm => by
    rw [dmaTaken, dmaCount_lpspi, setDma_lpspi, hm, popRx_lpspi_length]
  simp only [dmaRxMove] at h
  split at h
  · split at h
    · cases h; exact htaken _ rfl
    · split at h
      · cases h
      · split at h
        · cases h
        · cases h; exact htaken _ rfl
    · cases h; rfl
  · cases h; rfl

theorem agentMove_lpspi_length {x : Stimulus} {s t : State} (h : agentMove x s = .ok t) : t.lpspi.length = s.lpspi.length := by
  cases x with
  | dmaTx u => exact dmaTxMove_lpspi_length h
  | dmaRx u => exact dmaRxMove_lpspi_length h
  | take | shift | setBusy | hwReset => cases h; exact tset_length _ _ _
  | clockIn u v =>
    simp only [agentMove] at h
    split at h <;> cases h
    · exact tset_length _ _ _
    · rfl
  | port | hostStore | hostConfig => cases h; rfl

theorem tablesOk_agentMove {x : Stimulus} {s t : State} (h : agentMove x s = .ok t) (hs : s.tablesOk = true) : t.tablesOk = true := by
  have hl := agentMove_lpspi_length h
  obtain ⟨a, c, rfl⟩ | hst := agentMove_cases h
  · exact hs
  · rw [(hst.sameTables hl).tablesOk]; exact hs

theorem rxStoreFrame_lpspi {s t : State} {c i : Nat} {w : Width} {v : Word} (h : rxStoreFrame s c w i v = .ok t) :
    t.lpspi = s.lpspi := by
  obtain rfl | ⟨_, _, _, _, _, _, rfl⟩ := rxStoreFrame_cases h <;> rfl

theorem enqueue_job_length (j : Nat) (s : State) : (enqueue j s).job.length = s.job.length := by
  simp only [enqueue]
  split <;> simp [State.setJobNext]

theorem enqueue_sameTables (j : Nat) (s : State) : SameTables s (enqueue j s) := by
  have hjob := enqueue_job_length j s
  obtain ⟨m, ⟨js, rfl⟩, he⟩ := enqueue_eq j s
  rw [he] at hjob ⊢
  exact { SameTables.refl s with job := hjob, unit := tset_length _ _ _ }

theorem popNext_sameTables {u : Nat} {n : Option Nat} {s t : State} (h : popNext u s = .ok (n, t)) : SameTables s t := by
  obtain ⟨-, -, rfl⟩ | ⟨j, -, -, -, rfl⟩ := popNext_cases h
  · exact { SameTables.refl s with unit := tset_length _ _ _ }
  · exact { SameTables.refl s with unit := tset_length _ _ _, job := by simp [State.setJobNext, State.setJobResult] }

@[simp] theorem mapFirst_length {α : Type} (f : α → α) (n : Nat) (l : List α) : (mapFirst f n l).length = l.length := by
  induction l generalizing n with
  | nil => simp [mapFirst]
  | cons x rest ih => cases n <;> simp [mapFirst, ih]

/-- The tables that `INIT` builds have the sizes of its configuration, and are those of an initialised driver. -/
theorem tablesOk_initTables {c : Cfg} {s : State} (hwf : cfgWellFormed s.params c = true) (h : s.tablesOk = true) :
    ({ initTables c s with drvInit := true } : State).tablesOk = true := by
  obtain ⟨⟨hunit, hdev, hlpspi, -⟩, -⟩ := tablesOk_iff.1 h
  refine tablesOk_iff.2 ⟨⟨?_, ?_, hlpspi, List.length_map _, List.length_map _, List.length_map _⟩, fun _ => ⟨hwf, rfl, rfl⟩⟩
  · exact (mapFirst_length _ _ _).trans hunit
  · exact (mapFirst_length _ _ _).trans hdev

/-- The hardware initialisation keeps the tables of the driver that `INIT` is about to declare initialised. -/
theorem tablesOk_hwClosed : HwClosed fun s => ({ s with drvInit := true } : State).tablesOk = true where
  move x s t h hs := by
    have hl := agentMove_lpspi_length h
    obtain ⟨a, c, rfl⟩ | hst := agentMove_cases h
    · exact hs
    · exact tablesOk_of_same (s := { s with drvInit := true }) { hst.sameTables hl with drvInit := rfl } hs
  inputs _ _ h := h
  emit _ _ h := h
  poke s _ _ h := tablesOk_of_same { SameTables.refl { s with drvInit := true } with lpspi := tset_length _ _ _ } h
  setDma _ _ _ h := h
  setBase s _ _ h := tablesOk_of_same { SameTables.refl { s with drvInit := true } with dev := tset_length _ _ _ } h

theorem tablesOk_closed : Closed fun s => s.tablesOk = true where
  move _ _ _ := tablesOk_agentMove
  inputs _ _ h := h
  raised _ _ h := h
  emit _ _ h := h
  poke s _ _ := tablesOk_of_same { SameTables.refl s with lpspi := tset_length _ _ _ }
  pop s u := tablesOk_of_same ((popRx_sameBlock s u).sameTables (popRx_lpspi_length s u))
  soil s _ := tablesOk_of_same { SameTables.refl s with lpspi := tset_length _ _ _ }
  setDma _ _ _ h := h
  setDev s _ _ _ := tablesOk_of_same { SameTables.refl s with dev := tset_length _ _ _ }
  setJob s _ _ := tablesOk_of_same { SameTables.refl s with job := tset_length _ _ _ }
  setSeq s _ _ _ := tablesOk_of_same { SameTables.refl s with seq := tset_length _ _ _ }
  setChan s _ _ _ := tablesOk_of_same { SameTables.refl s with chan := tset_length _ _ _ }
  store _ _ _ _ _ _ hst := tablesOk_of_same ((rxStoreFrame_sameBlock hst).sameTables (by rw [rxStoreFrame_lpspi hst]))
  copy _ _ _ _ _ _ _ h := h
  unitStatus s _ _ := tablesOk_of_same { SameTables.refl s with unit := tset_length _ _ _ }
  enqueue s j := tablesOk_of_same (enqueue_sameTables j s)
  popNext _ _ _ _ hp := tablesOk_of_same (popNext_sameTables hp)
  claim s _ := tablesOk_of_same { SameTables.refl s with seq := tset_length _ _ _ }
  release s _ _ := tablesOk_of_same { SameTables.refl s with seq := tset_length _ _ _ }
  init _ _ _ hwf hi h := by
    obtain ⟨m, hm, rfl⟩ := tablesOk_hwClosed.initWith hi (tablesOk_initTables hwf h)
    exact hm
  deinit s h := by
    obtain ⟨⟨hunit, hsizes⟩, -⟩ := tablesOk_iff.1 h
    exact tablesOk_iff.2 ⟨⟨(mapFirst_length _ _ _).trans hunit, hsizes⟩, fun hinit => nomatch hinit⟩

/-- Settles O11: a table's size changes only in `INIT`, which gives it the size of the new configuration. -/
theorem stepKeepsTables : Obligations.StepKeepsTables :=
  fun _ _ hs h => tablesOk_closed.step h hs

/-! The lists of a queue (10_state.md R60, R61) -/

/-- `next` links the jobs of `l`, from the head `h` to the end. -/
def Linked (next : Nat → Option Nat) : Option Nat → List Nat → Prop
  | h, [] => h = none
  | h, k :: l => h = some k ∧ Linked next (next k) l

theorem Linked.congr {next next' : Nat → Option Nat} {h : Option Nat} {l : List Nat} (hl : Linked next h l)
    (heq : ∀ k ∈ l, next' k = next k) : Linked next' h l := by
  induction l generalizing h with
  | nil => exact hl
  | cons k rest ih =>
    obtain ⟨hk, hrest⟩ := hl
    refine ⟨hk, ih ?_ fun m hm => heq m (List.mem_cons_of_mem k hm)⟩
    rw [heq k List.mem_cons_self]; exact hrest

/-- A job that becomes the last one's next job, and has none itself, is appended. -/
theorem Linked.append {next next' : Nat → Option Nat} {x : Nat} {h : Option Nat} {l : List Nat} (hl : Linked next h l)
    (hnodup : l.Nodup) (hlast : ∀ k ∈ l, next' k = if l.getLast? = some k then some x else next k) (hx : next' x = none) :
    Linked next' (if l = [] then some x else h) (l ++ [x]) := by
  induction l generalizing h with
  | nil => exact ⟨rfl, hx⟩
  | cons k rest ih =>
    obtain ⟨hk, hrest⟩ := hl
    obtain ⟨hnot, hnodup⟩ := List.nodup_cons.1 hnodup
    have hk' := hlast k List.mem_cons_self
    refine ⟨by rw [if_neg (List.cons_ne_nil k rest), hk], ?_⟩
    cases rest with
    | nil => rw [hk']; exact ⟨if_pos rfl, hx⟩
    | cons m rest =>
      have hne : (k :: m :: rest).getLast? ≠ some k := fun he => by
        rw [List.getLast?_cons_cons] at he
        exact hnot (List.mem_of_getLast? he)
      rw [hk', if_neg hne]
      refine ih hrest hnodup fun i hi => ?_
      rw [hlast i (List.mem_cons_of_mem k hi), List.getLast?_cons_cons]

/-- `chain` reads the list that the jobs' `Next` fields link. -/
theorem chain_of_linked {jobs : List JobState} {h : Option Nat} {l : List Nat} {n : Nat}
    (hl : Linked (fun j => (tget jobs j).next) h l) (hn : l.length ≤ n) : chain jobs n h = l := by
  induction l generalizing h n with
  | nil => subst hl; cases n <;> rfl
  | cons k rest ih =>
    obtain ⟨rfl, hrest⟩ := hl
    cases n with
    | zero => cases hn
    | succ n => rw [chain, ih hrest (by simpa using hn)]

/-- A chain that was read to a job without a next one is a whole list. -/
theorem linked_chain {jobs : List JobState} {n : Nat} {h : Option Nat} (hn : 0 < n)
    (hend : ((chain jobs n h).getLast?.all fun j => (tget jobs j).next.isNone) = true) :
    Linked (fun j => (tget jobs j).next) h (chain jobs n h) := by
  induction n generalizing h with
  | zero => cases hn
  | succ n ih =>
    cases h with
    | none => rfl
    | some j =>
      refine ⟨rfl, ?_⟩
      by_cases hnil : chain jobs n (tget jobs j).next = []
      · rw [chain, hnil] at hend
        rw [hnil]; exact Option.isNone_iff_eq_none.1 (by simpa using hend)
      · have hpos : 0 < n := by
          cases n with
          | zero => exact absurd rfl hnil
          | succ n => exact Nat.succ_pos n
        refine ih hpos ?_
        obtain ⟨m, rest, hcons⟩ := List.exists_cons_of_ne_nil hnil
        rw [chain, hcons, List.getLast?_cons_cons] at hend
        rw [hcons]; exact hend

/-- The last job of a list has no next one. -/
theorem next_of_getLast {next : Nat → Option Nat} {h : Option Nat} {l : List Nat} (hl : Linked next h l) :
    (l.getLast?.all fun j => (next j).isNone) = true := by
  induction l generalizing h with
  | nil => rfl
  | cons k rest ih =>
    obtain ⟨-, hrest⟩ := hl
    cases rest with
    | nil => exact Option.isNone_iff_eq_none.2 hrest
    | cons m rest => rw [List.getLast?_cons_cons]; exact ih hrest

/-- Different jobs of a configuration are at most as many as it has. -/
theorem length_le_of_nodup {l : List Nat} {n : Nat} (hnodup : l.Nodup) (hlt : ∀ j ∈ l, j < n) : l.length ≤ n := by
  simpa using hnodup.length_le_of_subset (l₂ := List.range n) fun j hj => List.mem_range.2 (hlt j hj)

/-! Jobs, queues and sequences after a write -/

/-- A write that leaves a part of an entry alone leaves it alone in the table. -/
theorem proj_tset {α β : Type} [Inhabited α] {f : α → β} {l : List α} {i : Nat} {v : α} (h : f v = f (tget l i)) (j : Nat) :
    f (tget (tset l i v) j) = f (tget l j) := by
  by_cases hi : i < l.length
  · rw [tget_tset hi]
    split
    · rename_i he; rw [h, he]
    · rfl
  · rw [tget_tset_out l i j v (by omega)]

@[simp] theorem setJobResult_owner (s : State) (j : Nat) (r : JobResult) (i : Nat) :
    ((s.setJobResult j r).jobAt i).owner = (s.jobAt i).owner := proj_tset (f := JobState.owner) (by rfl) i
@[simp] theorem setJobResult_next (s : State) (j : Nat) (r : JobResult) (i : Nat) :
    ((s.setJobResult j r).jobAt i).next = (s.jobAt i).next := proj_tset (f := JobState.next) (by rfl) i
@[simp] theorem setJobNext_owner (s : State) (j : Nat) (n : Option Nat) (i : Nat) :
    ((s.setJobNext j n).jobAt i).owner = (s.jobAt i).owner := proj_tset (f := JobState.owner) (by rfl) i
@[simp] theorem setJobNext_result (s : State) (j : Nat) (n : Option Nat) (i : Nat) :
    ((s.setJobNext j n).jobAt i).result = (s.jobAt i).result := proj_tset (f := JobState.result) (by rfl) i
@[simp] theorem setJobOwner_result (s : State) (j : Nat) (o : Option Nat) (i : Nat) :
    ((s.setJobOwner j o).jobAt i).result = (s.jobAt i).result := proj_tset (f := JobState.result) (by rfl) i
@[simp] theorem setJobOwner_next (s : State) (j : Nat) (o : Option Nat) (i : Nat) :
    ((s.setJobOwner j o).jobAt i).next = (s.jobAt i).next := proj_tset (f := JobState.next) (by rfl) i

theorem jobAt_setJob {s : State} {j : Nat} (h : j < s.job.length) (v : JobState) (i : Nat) :
    (s.setJob j v).jobAt i = if j = i then v else s.jobAt i := tget_tset h v i

theorem setJobResult_result {s : State} {j : Nat} (h : j < s.job.length) (r : JobResult) (i : Nat) :
    ((s.setJobResult j r).jobAt i).result = if j = i then r else (s.jobAt i).result := by
  rw [State.setJobResult, jobAt_setJob h]; split <;> rfl

theorem setJobNext_next {s : State} {j : Nat} (h : j < s.job.length) (n : Option Nat) (i : Nat) :
    ((s.setJobNext j n).jobAt i).next = if j = i then n else (s.jobAt i).next := by
  rw [State.setJobNext, jobAt_setJob h]; split <;> rfl

theorem setJobOwner_owner {s : State} {j : Nat} (h : j < s.job.length) (o : Option Nat) (i : Nat) :
    ((s.setJobOwner j o).jobAt i).owner = if j = i then o else (s.jobAt i).owner := by
  rw [State.setJobOwner, jobAt_setJob h]; split <;> rfl

@[simp] theorem setJobResult_job_length (s : State) (j : Nat) (r : JobResult) : (s.setJobResult j r).job.length = s.job.length :=
  tset_length _ _ _
@[simp] theorem setJobNext_job_length (s : State) (j : Nat) (n : Option Nat) : (s.setJobNext j n).job.length = s.job.length :=
  tset_length _ _ _
@[simp] theorem setJobOwner_job_length (s : State) (j : Nat) (o : Option Nat) : (s.setJobOwner j o).job.length = s.job.length :=
  tset_length _ _ _

theorem unitAt_setUnit {s : State} {u : Nat} (h : u < s.unit.length) (q : UnitQ) (v : Nat) :
    (s.setUnit u q).unitAt v = if u = v then q else s.unitAt v := tget_tset h q v

theorem seqAt_setSeq {s : State} {q : Nat} (h : q < s.seq.length) (e : SeqState) (r : Nat) :
    (s.setSeq q e).seqAt r = if q = r then e else s.seqAt r := tget_tset h e r

theorem setUnitStatus_status {s : State} {u : Nat} (h : u < s.unit.length) (st : Status) (v : Nat) :
    ((s.setUnitStatus u st).unitAt v).status = if u = v then st else (s.unitAt v).status := by
  rw [State.setUnitStatus, unitAt_setUnit h]; split <;> rfl

@[simp] theorem setUnitStatus_head (s : State) (u : Nat) (st : Status) (v : Nat) :
    ((s.setUnitStatus u st).unitAt v).head = (s.unitAt v).head := proj_tset (f := UnitQ.head) (by rfl) v
@[simp] theorem setUnitStatus_tail (s : State) (u : Nat) (st : Status) (v : Nat) :
    ((s.setUnitStatus u st).unitAt v).tail = (s.unitAt v).tail := proj_tset (f := UnitQ.tail) (by rfl) v
@[simp] theorem setUnitStatus_ok (s : State) (u : Nat) (st : Status) (v : Nat) :
    ((s.setUnitStatus u st).unitAt v).ok = (s.unitAt v).ok := proj_tset (f := UnitQ.ok) (by rfl) v

/-! The configuration of a running driver -/

/-- The driver is initialised with a well-formed configuration, and the tables of the scheduler and the cache fit it. -/
structure Fit (s : State) : Prop where
  wf : cfgWellFormed s.params s.cfg = true
  init : s.drvInit = true
  cache : s.seqCache = seqCacheOf s.params s.cfg
  unit : s.unit.length = 13
  dev : s.dev.length = 13
  job : s.job.length = s.cfg.numJobs
  seq : s.seq.length = s.cfg.numSeqs

theorem fit_of_tablesOk {s : State} (h : s.tablesOk = true) (hinit : s.drvInit = true) : Fit s := by
  obtain ⟨⟨hunit, hdev, -, -, hjob, hseq⟩, hcomputed⟩ := tablesOk_iff.1 h
  obtain ⟨hwf, -, hcache⟩ := hcomputed hinit
  exact ⟨hwf, hinit, hcache, hunit, hdev, hjob, hseq⟩

section
variable {p : Params} {c : Cfg} (hwf : cfgWellFormed p c = true)
include hwf

theorem cfgWellFormed_numJobs_pos : 0 < c.numJobs := by
  obtain ⟨hsizes, -⟩ := cfgWellFormed_parts hwf
  simp only [sizesOk, Bool.and_eq_true, decide_eq_true_eq] at hsizes
  omega

theorem cfgWellFormed_jobs_pos {q : SeqCfg} (hq : q ∈ c.seqs) : 0 < q.jobs.length := by
  obtain ⟨-, -, -, hseqs⟩ := cfgWellFormed_parts hwf
  have hok := hseqs q hq
  simp only [seqOk, Bool.and_eq_true, Bool.not_eq_true', List.isEmpty_eq_false_iff] at hok
  obtain ⟨⟨⟨hne, -⟩, -⟩, -⟩ := hok
  exact List.length_pos_of_ne_nil hne

/-- All jobs of a sequence are on units of one partition (10_state.md R35). -/
theorem cfgWellFormed_partition {q : SeqCfg} (hq : q ∈ c.seqs) {j : Nat} (hj : j ∈ q.jobs) :
    (c.unitAt (c.jobAt j).hwUnit).isSync = (c.unitAt (c.jobAt (tget q.jobs 0)).hwUnit).isSync := by
  obtain ⟨-, -, -, hseqs⟩ := cfgWellFormed_parts hwf
  have hok := hseqs q hq
  simp only [seqOk, Bool.and_eq_true, List.all_eq_true, decide_eq_true_eq] at hok
  obtain ⟨-, hpart⟩ := hok
  exact hpart j hj

end

namespace Fit

variable {s : State} (h : Fit s)
include h

theorem unitOf_lt {j : Nat} (hj : j < s.cfg.numJobs) : s.unitOf j < s.cfg.numUnits := cfgWellFormed_hwUnit_lt h.wf hj

theorem unit_lt {u : Nat} (hu : u < s.cfg.numUnits) : u < s.unit.length := by
  have hle := cfgWellFormed_numUnits_le h.wf
  rw [h.unit]; omega

theorem dev_lt {u : Nat} (hu : u < s.cfg.numUnits) : u < s.dev.length := by
  rw [h.dev, ← h.unit]; exact h.unit_lt hu

theorem job_lt {j : Nat} (hj : j < s.cfg.numJobs) : j < s.job.length := by rw [h.job]; exact hj

theorem seq_lt {q : Nat} (hq : q < s.cfg.numSeqs) : q < s.seq.length := by rw [h.seq]; exact hq

theorem priority_lt {j : Nat} (hj : j < s.cfg.numJobs) : (s.cfg.jobAt j).priority < 4 :=
  Nat.lt_succ_of_le (cfgWellFormed_priority_le h.wf (tget_mem s.cfg.jobs j hj))

theorem seqJob_lt {q j : Nat} (hq : q < s.cfg.numSeqs) (hj : j ∈ (s.cfg.seqAt q).jobs) : j < s.cfg.numJobs :=
  cfgWellFormed_job_lt h.wf (tget_mem s.cfg.seqs q hq) hj

theorem seqJobs_pos {q : Nat} (hq : q < s.cfg.numSeqs) : 0 < (s.cfg.seqAt q).jobs.length :=
  cfgWellFormed_jobs_pos h.wf (tget_mem s.cfg.seqs q hq)

theorem isSync_eq {q j : Nat} (hq : q < s.cfg.numSeqs) (hj : j ∈ (s.cfg.seqAt q).jobs) :
    (s.cfg.unitAt (s.unitOf j)).isSync = s.seqIsSync q :=
  cfgWellFormed_partition h.wf (tget_mem s.cfg.seqs q hq) hj

end Fit

/-! Scheduling in order -/

/-- Where the jobs stand, also in the middle of a procedure: `cur u` is the job that transfers on unit `u` or is about to start there,
`list u p` the jobs that wait on level `p` of `u`, `free` the units that are `BUSY` between two jobs, `pend` the current job of a
sequence that no unit has yet. -/
structure Plan where
  cur : Nat → Option Nat
  list : Nat → Nat → List Nat
  free : List Nat
  pend : Option Nat

/-- Job `j` is in flight or waits on its unit. -/
def Plan.Underway (π : Plan) (s : State) (j : Nat) : Prop :=
  π.cur (s.unitOf j) = some j ∨ j ∈ π.list (s.unitOf j) (s.cfg.jobAt j).priority

/-- Job `j` may stand in the list of level `p` of unit `u` (10_state.md R61 (d)). -/
structure MayWait (s : State) (u p j : Nat) : Prop where
  lt : j < s.cfg.numJobs
  unit : s.unitOf j = u
  level : (s.cfg.jobAt j).priority = p
  queued : (s.jobAt j).result = .queued
  locked : (s.jobAt j).owner.isSome = true

/-- Level `p` of unit `u` is the list `l` (R61 (c), (d)). -/
structure Level (s : State) (u p : Nat) (l : List Nat) : Prop where
  linked : Linked (fun j => (s.jobAt j).next) ((s.unitAt u).headAt p) l
  tail : (s.unitAt u).tailAt p = l.getLast?
  nodup : l.Nodup
  waits : ∀ j ∈ l, MayWait s u p j

/-- The queues of the units are in order and hold the lists of the plan (R61). -/
structure Lists (s : State) (π : Plan) : Prop where
  queue : ∀ u < s.cfg.numUnits, (s.unitAt u).ok = true
  level : ∀ u < s.cfg.numUnits, ∀ p < 4, Level s u p (π.list u p)

theorem Lists.waits {s : State} {π : Plan} (h : Lists s π) (u : Nat) (hu : u < s.cfg.numUnits) (p : Nat) (hp : p < 4) :
    ∀ j ∈ π.list u p, MayWait s u p j := (h.level u hu p hp).waits

/-- The occupancy of the units (R61 (a), 45_scheduler.md R352). -/
structure Units (s : State) (π : Plan) : Prop where
  idle : ∀ u < s.cfg.numUnits, π.cur u = none → u ∉ π.free → (s.unitAt u).status = .idle ∧ ∀ p < 4, π.list u p = []
  busy : ∀ u < s.cfg.numUnits, ∀ j, π.cur u = some j →
    (s.unitAt u).status = .busy ∧ j < s.cfg.numJobs ∧ s.unitOf j = u ∧ (s.jobAt j).result = .pending ∧ (s.jobAt j).owner.isSome = true
  free : ∀ u ∈ π.free, u < s.cfg.numUnits ∧ π.cur u = none ∧ (s.unitAt u).status = .busy ∧ (s.cfg.unitAt u).isSync = false
  pending : ∀ j < s.cfg.numJobs, (s.jobAt j).result = .pending → π.cur (s.unitOf j) = some j

/-- Sequence `q` is on its way (45_scheduler.md R330, R345); its current job is underway, or still to be given to a unit. -/
structure OnItsWay (s : State) (π : Plan) (q : Nat) : Prop where
  nodup : (s.cfg.seqAt q).jobs.Nodup
  cursor : (s.seqAt q).cursor < (s.cfg.seqAt q).jobs.length
  count : (s.seqAt q).remainingJobs + (s.seqAt q).cursor = (s.cfg.seqAt q).jobs.length
  past : ∀ j ∈ (s.cfg.seqAt q).jobs.take (s.seqAt q).cursor, (s.jobAt j).owner ≠ some q
  owned : ∀ j ∈ (s.cfg.seqAt q).jobs.drop (s.seqAt q).cursor, (s.jobAt j).owner = some q
  current : π.Underway s (s.cursorJob q) ∨ π.pend = some (s.cursorJob q)
  later : ∀ j ∈ (s.cfg.seqAt q).jobs.drop ((s.seqAt q).cursor + 1), (s.jobAt j).result = .queued ∧ ¬ π.Underway s j

/-- The locks of the jobs, and the sequences they are held for (10_state.md R41, 46_cancel.md R374). -/
structure Locks (s : State) (π : Plan) : Prop where
  lock : ∀ j < s.cfg.numJobs, ∀ q, (s.jobAt j).owner = some q →
    q < s.cfg.numSeqs ∧ j ∈ (s.cfg.seqAt q).jobs ∧ ((s.seqAt q).result = .pending ∨ (s.seqAt q).result = .cancelled)
  pending : ∀ q < s.cfg.numSeqs, (s.seqAt q).result = .pending → s.seqIsSync q = false ∧ OnItsWay s π q
  cancelled : ∀ q < s.cfg.numSeqs, (s.seqAt q).result = .cancelled →
    s.seqIsSync q = false ∧ (OnItsWay s π q ∨ ∀ j < s.cfg.numJobs, (s.jobAt j).owner ≠ some q)
  pend : ∀ n, π.pend = some n → n < s.cfg.numJobs ∧ (s.jobAt n).result = .queued ∧ ¬ π.Underway s n ∧
    ∃ q, (s.jobAt n).owner = some q ∧ n = s.cursorJob q

/-- Locks, queues and occupancy follow the plan. -/
structure Sched (s : State) (π : Plan) : Prop where
  fit : Fit s
  lists : Lists s π
  units : Units s π
  locks : Locks s π

/-- `CurJob` of every unit. -/
def State.curOf (s : State) (u : Nat) : Option Nat := (s.devAt u).curJob

/-- The plan between two instructions: the jobs in flight are those of `Dev`, no unit is handed over, no job is to be placed. -/
def State.planOf (s : State) (list : Nat → Nat → List Nat) : Plan := { cur := s.curOf, list := list, free := [], pend := none }

/-! `State.schedOk` says that some plan is followed -/

theorem schedOk_iff {s : State} (hinit : s.drvInit = true) : s.schedOk = true ↔
    (∀ u < s.cfg.numUnits, s.unitOk u = true) ∧ ((List.range s.cfg.numUnits).flatMap s.waiting).Nodup ∧
    (∀ j < s.cfg.numJobs, s.lockOk j = true) ∧ ∀ q < s.cfg.numSeqs, s.sequenceOk q = true := by
  simp only [State.schedOk, hinit, Bool.not_true, Bool.false_or, Bool.and_eq_true, List.all_eq_true, List.mem_range,
    decide_eq_true_eq]

theorem levelOk_iff {s : State} {u p : Nat} : s.levelOk u p = true ↔
    (s.level u p).getLast? = (s.unitAt u).tailAt p ∧ ((s.level u p).getLast?.all fun j => (s.jobAt j).next.isNone) = true ∧
    ∀ j ∈ s.level u p, MayWait s u p j := by
  simp only [State.levelOk, Bool.and_eq_true, List.all_eq_true, decide_eq_true_eq, and_assoc]
  refine and_congr_right' <| and_congr_right' <| forall₂_congr fun j _ => ?_
  exact ⟨fun ⟨hlt, hunit, hlevel, hqueued, hlocked⟩ => ⟨hlt, hunit, hlevel, hqueued, hlocked⟩,
    fun h => ⟨h.lt, h.unit, h.level, h.queued, h.locked⟩⟩

theorem waiting_eq_nil {s : State} {u : Nat} : s.waiting u = [] ↔ ∀ p < 4, s.level u p = [] := by
  rw [State.waiting, List.flatMap_eq_nil_iff]
  simp only [List.mem_range]

theorem unitOk_iff {s : State} {u : Nat} : s.unitOk u = true ↔
    (∀ p < 4, s.levelOk u p = true) ∧
    (s.curOf u = none → (s.unitAt u).status = .idle ∧ ∀ p < 4, s.level u p = []) ∧
    (∀ j, s.curOf u = some j → (s.unitAt u).status = .busy ∧ (s.cfg.unitAt u).isSync = false ∧ j < s.cfg.numJobs ∧
      s.unitOf j = u ∧ (s.jobAt j).result = .pending ∧ (s.jobAt j).owner.isSome = true) ∧
    ∀ j < s.cfg.numJobs, s.unitOf j = u → (s.jobAt j).result = .pending → s.curOf u = some j := by
  simp only [State.unitOk, Bool.and_eq_true, List.all_eq_true, List.mem_range, decide_eq_true_eq, and_assoc]
  refine and_congr_right' ?_
  rw [← and_assoc (b := ∀ j, s.curOf u = some j → _)]
  refine and_congr ?_ Iff.rfl
  unfold State.curOf
  cases (s.devAt u).curJob with
  | none => simp [waiting_eq_nil]
  | some j => simp

theorem lockOk_iff {s : State} {j : Nat} : s.lockOk j = true ↔ ∀ q, (s.jobAt j).owner = some q →
    q < s.cfg.numSeqs ∧ j ∈ (s.cfg.seqAt q).jobs ∧ ((s.seqAt q).result = .pending ∨ (s.seqAt q).result = .cancelled) := by
  unfold State.lockOk
  cases (s.jobAt j).owner with
  | none => simp
  | some q => simp

theorem sequenceOk_iff {s : State} {q : Nat} : s.sequenceOk q = true ↔
    ((s.seqAt q).result = .pending → s.seqIsSync q = false ∧ s.running q = true) ∧
    ((s.seqAt q).result = .cancelled → s.seqIsSync q = false ∧
      (s.running q = true ∨ ∀ j < s.cfg.numJobs, (s.jobAt j).owner ≠ some q)) := by
  unfold State.sequenceOk
  cases (s.seqAt q).result <;> simp

theorem cursorJob_eq {s : State} {q : Nat} (h : (s.seqAt q).cursor < (s.cfg.seqAt q).jobs.length) :
    s.cursorJob q = (s.cfg.seqAt q).jobs[(s.seqAt q).cursor] := tget_eq_getElem _ _ h

/-- The jobs that a sequence has left: the current one, then the later ones. -/
theorem drop_cursor {s : State} {q : Nat} (h : (s.seqAt q).cursor < (s.cfg.seqAt q).jobs.length) :
    (s.cfg.seqAt q).jobs.drop (s.seqAt q).cursor =
      s.cursorJob q :: (s.cfg.seqAt q).jobs.drop ((s.seqAt q).cursor + 1) := by
  rw [cursorJob_eq h, List.drop_eq_getElem_cons h]

theorem cursorJob_mem {s : State} {q : Nat} (h : (s.seqAt q).cursor < (s.cfg.seqAt q).jobs.length) :
    s.cursorJob q ∈ (s.cfg.seqAt q).jobs := by rw [cursorJob_eq h]; exact List.getElem_mem h

theorem running_iff {s : State} {π : Plan} {q : Nat} (hpend : π.pend = none)
    (hunder : ∀ j ∈ (s.cfg.seqAt q).jobs, s.underway j = true ↔ π.Underway s j) : s.running q = true ↔ OnItsWay s π q := by
  simp only [State.running, Bool.and_eq_true, List.all_eq_true, decide_eq_true_eq]
  constructor
  · rintro ⟨hnodup, hcursor, hcount, hpast, howned, hcurrent, hlater⟩
    refine ⟨hnodup, hcursor, hcount, hpast, howned, .inl ?_, fun j hj => ?_⟩
    · rw [drop_cursor hcursor] at hcurrent
      exact (hunder _ (cursorJob_mem hcursor)).1 hcurrent
    · obtain ⟨hqueued, hnot⟩ := hlater j hj
      refine ⟨hqueued, fun hu => ?_⟩
      rw [(hunder j (List.mem_of_mem_drop hj)).2 hu] at hnot
      cases hnot
  · intro h
    refine ⟨h.nodup, h.cursor, h.count, h.past, h.owned, ?_, fun j hj => ?_⟩
    · rw [drop_cursor h.cursor]
      obtain hcurrent | hcurrent := h.current
      · exact (hunder _ (cursorJob_mem h.cursor)).2 hcurrent
      · rw [hpend] at hcurrent; cases hcurrent
    · obtain ⟨hqueued, hnot⟩ := h.later j hj
      refine ⟨hqueued, ?_⟩
      rw [Bool.not_eq_true', ← Bool.not_eq_true, hunder j (List.mem_of_mem_drop hj)]
      exact hnot

/-- The jobs of the levels of a unit are those that wait in the lists of a plan. -/
theorem underway_iff {s : State} {list : Nat → Nat → List Nat} (hfit : Fit s)
    (hlevel : ∀ u < s.cfg.numUnits, ∀ p < 4, s.level u p = list u p)
    (hwaits : ∀ u < s.cfg.numUnits, ∀ p < 4, ∀ j ∈ list u p, MayWait s u p j) {j : Nat} (hj : j < s.cfg.numJobs) :
    s.underway j = true ↔ (s.planOf list).Underway s j := by
  have hu := hfit.unitOf_lt hj
  simp only [State.underway, Bool.or_eq_true, decide_eq_true_eq, List.contains_iff_mem, State.waiting, List.mem_flatMap, List.mem_range]
  refine or_congr Iff.rfl ⟨?_, fun hmem => ?_⟩
  · rintro ⟨p, hp, hmem⟩
    rw [hlevel _ hu p hp] at hmem
    have hlevel := (hwaits _ hu p hp j hmem).level
    subst hlevel; exact hmem
  · exact ⟨_, hfit.priority_lt hj, by rw [hlevel _ hu _ (hfit.priority_lt hj)]; exact hmem⟩

theorem sched_of_schedOk {s : State} (hfit : Fit s) (hqueues : s.queuesOk = true) (h : s.schedOk = true) :
    Sched s (s.planOf s.level) := by
  obtain ⟨hunits, hnodup, hlocks, hseqs⟩ := (schedOk_iff hfit.init).1 h
  have hlevels : ∀ u < s.cfg.numUnits, ∀ p < 4, s.levelOk u p = true := fun u hu => (unitOk_iff.1 (hunits u hu)).1
  have hwaits : ∀ u < s.cfg.numUnits, ∀ p < 4, ∀ j ∈ s.level u p, MayWait s u p j := fun u hu p hp =>
    (levelOk_iff.1 (hlevels u hu p hp)).2.2
  have hrunning : ∀ q < s.cfg.numSeqs, s.running q = true → OnItsWay s (s.planOf s.level) q := fun q hq =>
    (running_iff rfl fun j hj => underway_iff hfit (fun _ _ _ _ => rfl) hwaits (hfit.seqJob_lt hq hj)).1
  refine ⟨hfit, ⟨?_, fun u hu p hp => ⟨?_, ?_, ?_, hwaits u hu p hp⟩⟩, ⟨?_, ?_, fun _ hu => (nomatch hu), ?_⟩,
    ⟨?_, ?_, ?_, fun _ hn => (nomatch hn)⟩⟩
  · exact fun u hu => List.all_eq_true.1 (queuesOk_iff.1 hqueues).1 _ (tget_mem s.unit u (hfit.unit_lt hu))
  · obtain ⟨-, hend, -⟩ := levelOk_iff.1 (hlevels u hu p hp)
    exact linked_chain (by rw [hfit.job]; exact cfgWellFormed_numJobs_pos hfit.wf) hend
  · exact (levelOk_iff.1 (hlevels u hu p hp)).1.symm
  · obtain ⟨hunit, -⟩ := List.nodup_flatMap.1 hnodup
    obtain ⟨hlevel, -⟩ := List.nodup_flatMap.1 (hunit u (List.mem_range.2 hu))
    exact hlevel p (List.mem_range.2 hp)
  · exact fun u hu hcur _ => (unitOk_iff.1 (hunits u hu)).2.1 hcur
  · intro u hu j hcur
    obtain ⟨-, -, hbusy, -⟩ := unitOk_iff.1 (hunits u hu)
    obtain ⟨hstatus, -, hrest⟩ := hbusy j hcur
    exact ⟨hstatus, hrest⟩
  · intro j hj hpending
    obtain ⟨-, -, -, hone⟩ := unitOk_iff.1 (hunits _ (hfit.unitOf_lt hj))
    exact hone j hj rfl hpending
  · exact fun j hj => lockOk_iff.1 (hlocks j hj)
  · intro q hq hres
    obtain ⟨hsync, hrun⟩ := (sequenceOk_iff.1 (hseqs q hq)).1 hres
    exact ⟨hsync, hrunning q hq hrun⟩
  · intro q hq hres
    obtain ⟨hsync, hrun⟩ := (sequenceOk_iff.1 (hseqs q hq)).2 hres
    exact ⟨hsync, hrun.imp_left (hrunning q hq)⟩

/-- A locked job is on an asynchronous unit: its owner is a sequence of the asynchronous partition. -/
theorem Sched.async_of_locked {s : State} {π : Plan} (h : Sched s π) {j : Nat} (hj : j < s.cfg.numJobs)
    (hlocked : (s.jobAt j).owner.isSome = true) : (s.cfg.unitAt (s.unitOf j)).isSync = false := by
  obtain ⟨q, hq⟩ := Option.isSome_iff_exists.1 hlocked
  obtain ⟨hlt, hmem, hres⟩ := h.locks.lock j hj q hq
  rw [h.fit.isSync_eq hlt hmem]
  obtain hres | hres := hres
  · exact (h.locks.pending q hlt hres).1
  · exact (h.locks.cancelled q hlt hres).1

/-- The levels of the units hold the lists of the plan. -/
theorem Sched.level_eq {s : State} {π : Plan} (h : Sched s π) {u p : Nat} (hu : u < s.cfg.numUnits) (hp : p < 4) :
    s.level u p = π.list u p := by
  refine chain_of_linked (h.lists.level u hu p hp).linked ?_
  rw [h.fit.job]
  exact length_le_of_nodup (h.lists.level u hu p hp).nodup fun j hj => (h.lists.waits u hu p hp j hj).lt

theorem Sched.waiting_nodup {s : State} {π : Plan} (h : Sched s π) : ((List.range s.cfg.numUnits).flatMap s.waiting).Nodup := by
  have hwaits : ∀ u < s.cfg.numUnits, ∀ p < 4, ∀ j ∈ s.level u p, MayWait s u p j := fun u hu p hp => by
    rw [h.level_eq hu hp]; exact h.lists.waits u hu p hp
  have hunit : ∀ u < s.cfg.numUnits, ∀ j ∈ s.waiting u, s.unitOf j = u := fun u hu j hj => by
    obtain ⟨p, hp, hj⟩ := List.mem_flatMap.1 hj
    exact (hwaits u hu p (List.mem_range.1 hp) j hj).unit
  refine List.nodup_flatMap.2 ⟨fun u hu => List.nodup_flatMap.2 ⟨fun p hp => ?_, ?_⟩, ?_⟩
  · rw [h.level_eq (List.mem_range.1 hu) (List.mem_range.1 hp)]
    exact (h.lists.level u (List.mem_range.1 hu) p (List.mem_range.1 hp)).nodup
  · refine List.nodup_range.pairwise_of_forall_ne fun p hp p' hp' hne j hj hj' => hne ?_
    rw [← (hwaits u (List.mem_range.1 hu) p (List.mem_range.1 hp) j hj).level,
      (hwaits u (List.mem_range.1 hu) p' (List.mem_range.1 hp') j hj').level]
  · refine List.nodup_range.pairwise_of_forall_ne fun u hu u' hu' hne j hj hj' => hne ?_
    rw [← hunit u (List.mem_range.1 hu) j hj, hunit u' (List.mem_range.1 hu') j hj']

theorem schedOk_of_sched {s : State} {list : Nat → Nat → List Nat} (h : Sched s (s.planOf list)) : s.schedOk = true := by
  have hrunning : ∀ q < s.cfg.numSeqs, OnItsWay s (s.planOf list) q → s.running q = true := fun q hq =>
    (running_iff rfl fun j hj =>
      underway_iff h.fit (fun u hu p hp => h.level_eq hu hp) h.lists.waits (h.fit.seqJob_lt hq hj)).2
  refine (schedOk_iff h.fit.init).2 ⟨fun u hu => unitOk_iff.2 ⟨fun p hp => ?_, ?_, ?_, ?_⟩, h.waiting_nodup,
    fun j hj => lockOk_iff.2 (h.locks.lock j hj), fun q hq => sequenceOk_iff.2 ⟨?_, ?_⟩⟩
  · have hlevel : s.level u p = list u p := h.level_eq hu hp
    refine levelOk_iff.2 ⟨?_, ?_, ?_⟩
    · rw [hlevel]; exact (h.lists.level u hu p hp).tail.symm
    · rw [hlevel]; exact next_of_getLast (h.lists.level u hu p hp).linked
    · rw [hlevel]; exact h.lists.waits u hu p hp
  · intro hcur
    obtain ⟨hidle, hnil⟩ := h.units.idle u hu hcur (List.not_mem_nil)
    exact ⟨hidle, fun p hp => (h.level_eq hu hp).trans (hnil p hp)⟩
  · intro j hcur
    obtain ⟨hbusy, hj, hunit, hpending, hlocked⟩ := h.units.busy u hu j hcur
    exact ⟨hbusy, by rw [← hunit]; exact h.async_of_locked hj hlocked, hj, hunit, hpending, hlocked⟩
  · rintro j hj rfl hpending
    exact h.units.pending j hj hpending
  · intro hres
    obtain ⟨hsync, hway⟩ := h.locks.pending q hq hres
    exact ⟨hsync, hrunning q hq hway⟩
  · intro hres
    obtain ⟨hsync, hway⟩ := h.locks.cancelled q hq hres
    exact ⟨hsync, hway.imp_left (hrunning q hq)⟩

/-! Moving along the plan: what the segments of the scheduler do to it -/

theorem unitOf_congr {s t : State} (h : t.cfg = s.cfg) (j : Nat) : t.unitOf j = s.unitOf j := by
  rw [State.unitOf, State.unitOf, h]

theorem seqIsSync_congr {s t : State} (h : t.cfg = s.cfg) (q : Nat) : t.seqIsSync q = s.seqIsSync q := by
  rw [State.seqIsSync, State.seqIsSync, unitOf_congr h, h]

theorem cursorJob_congr {s t : State} {q : Nat} (h : t.cfg = s.cfg) (hcursor : (t.seqAt q).cursor = (s.seqAt q).cursor) :
    t.cursorJob q = s.cursorJob q := by rw [State.cursorJob, State.cursorJob, h, hcursor]

/-- A sequence stays on its way while its jobs stay locked, the current one stays placed and the later ones stay unplaced. -/
theorem OnItsWay.transfer {s t : State} {π π' : Plan} {q : Nat} (h : OnItsWay s π q) (hcfg : t.cfg = s.cfg)
    (hcursor : (t.seqAt q).cursor = (s.seqAt q).cursor) (hcount : (t.seqAt q).remainingJobs = (s.seqAt q).remainingJobs)
    (howner : ∀ j, (t.jobAt j).owner = some q ↔ (s.jobAt j).owner = some q)
    (hcurrent : π.Underway s (s.cursorJob q) ∨ π.pend = some (s.cursorJob q) →
      π'.Underway t (s.cursorJob q) ∨ π'.pend = some (s.cursorJob q))
    (hlater : ∀ j ∈ (s.cfg.seqAt q).jobs.drop ((s.seqAt q).cursor + 1), (s.jobAt j).result = .queued → ¬ π.Underway s j →
      (t.jobAt j).result = .queued ∧ ¬ π'.Underway t j) : OnItsWay t π' q where
  nodup := by rw [hcfg]; exact h.nodup
  cursor := by rw [hcfg, hcursor]; exact h.cursor
  count := by rw [hcfg, hcursor, hcount]; exact h.count
  past := by
    rw [hcfg, hcursor]
    exact fun j hj ho => h.past j hj ((howner j).1 ho)
  owned := by
    rw [hcfg, hcursor]
    exact fun j hj => (howner j).2 (h.owned j hj)
  current := by
    rw [cursorJob_congr hcfg hcursor]; exact hcurrent h.current
  later := by
    rw [hcfg, hcursor]
    exact fun j hj => hlater j hj (h.later j hj).1 (h.later j hj).2

/-- The current job of a sequence on its way is none of the later ones. -/
theorem OnItsWay.cursorJob_not_later {s : State} {π : Plan} {q : Nat} (h : OnItsWay s π q) :
    s.cursorJob q ∉ (s.cfg.seqAt q).jobs.drop ((s.seqAt q).cursor + 1) := by
  have hnodup : ((s.cfg.seqAt q).jobs.drop (s.seqAt q).cursor).Nodup := h.nodup.sublist (List.drop_sublist _ _)
  rw [drop_cursor h.cursor] at hnodup
  exact (List.nodup_cons.1 hnodup).1

theorem OnItsWay.cursorJob_owner {s : State} {π : Plan} {q : Nat} (h : OnItsWay s π q) :
    (s.jobAt (s.cursorJob q)).owner = some q :=
  h.owned _ (by rw [drop_cursor h.cursor]; exact List.mem_cons_self)

theorem OnItsWay.later_owner {s : State} {π : Plan} {q j : Nat} (h : OnItsWay s π q)
    (hj : j ∈ (s.cfg.seqAt q).jobs.drop ((s.seqAt q).cursor + 1)) : (s.jobAt j).owner = some q :=
  h.owned _ (by rw [drop_cursor h.cursor]; exact List.mem_cons_of_mem _ hj)

/-- A job that a sequence on its way has locked is its current job or a later one. -/
theorem OnItsWay.owned_cases {s : State} {π : Plan} {q j : Nat} (h : OnItsWay s π q) (hmem : j ∈ (s.cfg.seqAt q).jobs)
    (ho : (s.jobAt j).owner = some q) :
    j = s.cursorJob q ∨ j ∈ (s.cfg.seqAt q).jobs.drop ((s.seqAt q).cursor + 1) := by
  rw [← List.take_append_drop (s.seqAt q).cursor (s.cfg.seqAt q).jobs, List.mem_append] at hmem
  obtain hpast | hleft := hmem
  · exact absurd ho (h.past j hpast)
  · rw [drop_cursor h.cursor] at hleft
    exact List.mem_cons.1 hleft

namespace Sched

variable {s : State} {π : Plan} (h : Sched s π)
include h

/-- The owner of a locked job is on its way. -/
theorem owner_onItsWay {j q : Nat} (hj : j < s.cfg.numJobs) (ho : (s.jobAt j).owner = some q) :
    q < s.cfg.numSeqs ∧ j ∈ (s.cfg.seqAt q).jobs ∧ OnItsWay s π q := by
  obtain ⟨hq, hmem, hres⟩ := h.locks.lock j hj q ho
  refine ⟨hq, hmem, ?_⟩
  obtain hres | hres := hres
  · exact (h.locks.pending q hq hres).2
  · obtain ⟨-, hway | hnone⟩ := h.locks.cancelled q hq hres
    · exact hway
    · exact absurd ho (hnone j hj)

/-- A locked job that is underway is the current job of its owner. -/
theorem eq_cursorJob {j q : Nat} (hj : j < s.cfg.numJobs) (ho : (s.jobAt j).owner = some q) (hu : π.Underway s j) :
    j = s.cursorJob q := by
  obtain ⟨-, hmem, hway⟩ := h.owner_onItsWay hj ho
  obtain hcur | hlater := hway.owned_cases hmem ho
  · exact hcur
  · exact absurd hu (hway.later j hlater).2

/-- A job that waits is underway. -/
theorem underway_of_mem {u p j : Nat} (hu : u < s.cfg.numUnits) (hp : p < 4) (hj : j ∈ π.list u p) : π.Underway s j := by
  have hwait := h.lists.waits u hu p hp j hj
  exact .inr (by rw [hwait.unit, hwait.level]; exact hj)

/-- A job in flight is underway. -/
theorem underway_of_cur {u j : Nat} (hu : u < s.cfg.numUnits) (hcur : π.cur u = some j) : π.Underway s j := by
  obtain ⟨-, -, hunit, -⟩ := h.units.busy u hu j hcur
  exact .inl (by rw [hunit]; exact hcur)

/-- The job to be placed is no later job of any sequence. -/
theorem pend_not_later {n q : Nat} (hn : π.pend = some n) (hway : OnItsWay s π q) :
    n ∉ (s.cfg.seqAt q).jobs.drop ((s.seqAt q).cursor + 1) := by
  intro hlater
  obtain ⟨-, -, -, r, ho, rfl⟩ := h.locks.pend n hn
  have heq := hway.later_owner hlater
  rw [ho] at heq
  cases heq
  exact hway.cursorJob_not_later hlater

end Sched

/-- A job may wait as before when its result and its lock are as before. -/
theorem MayWait.keep {s t : State} {u p j : Nat} (h : MayWait s u p j) (hcfg : t.cfg = s.cfg)
    (hresult : (t.jobAt j).result = (s.jobAt j).result) (howner : (t.jobAt j).owner = (s.jobAt j).owner) : MayWait t u p j where
  lt := by rw [hcfg]; exact h.lt
  unit := by rw [unitOf_congr hcfg]; exact h.unit
  level := by rw [hcfg]; exact h.level
  queued := by rw [hresult]; exact h.queued
  locked := by rw [howner]; exact h.locked

/-- A level is as before when its ends are, and its jobs may wait and are linked as before. -/
theorem Level.keep {s t : State} {u p : Nat} {l : List Nat} (h : Level s u p l)
    (hhead : (t.unitAt u).headAt p = (s.unitAt u).headAt p) (htail : (t.unitAt u).tailAt p = (s.unitAt u).tailAt p)
    (hnext : ∀ j ∈ l, (t.jobAt j).next = (s.jobAt j).next) (hwaits : ∀ j ∈ l, MayWait t u p j) : Level t u p l where
  linked := by rw [hhead]; exact h.linked.congr hnext
  tail := by rw [htail]; exact h.tail
  nodup := h.nodup
  waits := hwaits

/-- The units are occupied as before when their statuses, the jobs in flight and the units handed over are. -/
theorem Units.keep {s t : State} {π π' : Plan} (h : Units s π) (hcfg : t.cfg = s.cfg)
    (hstatus : ∀ u, (t.unitAt u).status = (s.unitAt u).status) (hresult : ∀ j, (t.jobAt j).result = (s.jobAt j).result)
    (howner : ∀ j, (t.jobAt j).owner = (s.jobAt j).owner) (hcur : π'.cur = π.cur) (hfree : π'.free = π.free)
    (hlist : ∀ u, (s.unitAt u).status = .idle → ∀ p, π.list u p = [] → π'.list u p = []) : Units t π' := by
  have hunitOf := unitOf_congr hcfg
  refine ⟨?_, ?_, ?_, ?_⟩
  · intro u hu hc hnot
    rw [hcfg] at hu
    rw [hcur] at hc
    rw [hfree] at hnot
    obtain ⟨hidle, hnil⟩ := h.idle u hu hc hnot
    exact ⟨(hstatus u).trans hidle, fun p hp => hlist u hidle p (hnil p hp)⟩
  · simpa only [hcfg, hcur, hunitOf, hstatus, hresult, howner] using h.busy
  · simpa only [hcfg, hcur, hfree, hstatus] using h.free
  · simpa only [hcfg, hcur, hunitOf, hresult] using h.pending

/-- The locks are as before when the owners and the sequences are, and the sequences on their way stay so. -/
theorem Locks.keep {s t : State} {π π' : Plan} (h : Locks s π) (hcfg : t.cfg = s.cfg) (hseq : ∀ q, t.seqAt q = s.seqAt q)
    (howner : ∀ j, (t.jobAt j).owner = (s.jobAt j).owner) (hway : ∀ q, OnItsWay s π q → OnItsWay t π' q)
    (hpend : ∀ n, π'.pend = some n → n < s.cfg.numJobs ∧ (t.jobAt n).result = .queued ∧ ¬ π'.Underway t n ∧
      ∃ q, (s.jobAt n).owner = some q ∧ n = s.cursorJob q) : Locks t π' := by
  refine ⟨by simpa only [hcfg, howner, hseq] using h.lock, fun q hq hres => ?_, fun q hq hres => ?_, fun n hn => ?_⟩
  · rw [hcfg] at hq
    rw [hseq] at hres
    rw [seqIsSync_congr hcfg]
    exact (h.pending q hq hres).imp_right (hway q)
  · rw [hcfg] at hq
    rw [hseq] at hres
    rw [seqIsSync_congr hcfg, hcfg]
    simpa only [howner] using (h.cancelled q hq hres).imp_right (Or.imp_left (hway q))
  · obtain ⟨hlt, hqueued, hnot, q, ho, hcursor⟩ := hpend n hn
    rw [hcfg, howner]
    exact ⟨hlt, hqueued, hnot, q, ho, hcursor.trans (cursorJob_congr hcfg (by rw [hseq])).symm⟩

/-- Locks depend on the jobs, the sequences and the places of the plan alone. -/
theorem Locks.congr {s t : State} {π π' : Plan} (h : Locks s π) (hcfg : t.cfg = s.cfg) (hjob : t.job = s.job)
    (hseq : t.seq = s.seq) (hcur : π'.cur = π.cur) (hlist : π'.list = π.list) (hpend : π'.pend = π.pend) : Locks t π' := by
  have hjobAt : ∀ j, t.jobAt j = s.jobAt j := fun j => by rw [State.jobAt, State.jobAt, hjob]
  have hseqAt : ∀ q, t.seqAt q = s.seqAt q := fun q => by rw [State.seqAt, State.seqAt, hseq]
  have hunder : ∀ j, π'.Underway t j ↔ π.Underway s j := fun j => by
    rw [Plan.Underway, Plan.Underway, unitOf_congr hcfg, hcfg, hcur, hlist]
  refine h.keep hcfg hseqAt (fun j => by rw [hjobAt]) (fun q hq => ?_) fun n hn => ?_
  · exact hq.transfer hcfg (by rw [hseqAt]) (by rw [hseqAt]) (fun j => by rw [hjobAt]) (fun hc => by rw [hunder, hpend]; exact hc)
      fun j _ hqueued hnot => by rw [hjobAt, hunder]; exact ⟨hqueued, hnot⟩
  · rw [hjobAt, hunder]
    exact h.pend n (hpend ▸ hn)

/-! The segments `CS3` and `CS4` (45_scheduler.md R340, R342) -/

/-- The tables still fit after an update that keeps their sizes. -/
theorem Fit.same {s t : State} (h : Fit s) (ht : SameTables s t) : Fit t where
  wf := by rw [ht.params, ht.cfg]; exact h.wf
  init := by rw [ht.drvInit]; exact h.init
  cache := by rw [ht.cache, ht.params, ht.cfg]; exact h.cache
  unit := ht.unit.trans h.unit
  dev := ht.dev.trans h.dev
  job := by rw [ht.job, ht.cfg]; exact h.job
  seq := by rw [ht.seq, ht.cfg]; exact h.seq

theorem setUnitStatus_sameTables (s : State) (u : Nat) (st : Status) : SameTables s (s.setUnitStatus u st) :=
  { SameTables.refl s with unit := tset_length _ _ _ }

theorem setJob_sameTables (s : State) (j : Nat) (v : JobState) : SameTables s (s.setJob j v) :=
  { SameTables.refl s with job := tset_length _ _ _ }

theorem setSeq_sameTables (s : State) (q : Nat) (e : SeqState) : SameTables s (s.setSeq q e) :=
  { SameTables.refl s with seq := tset_length _ _ _ }

/-- The lists of the queues do not depend on the units' statuses. -/
theorem Lists.setUnitStatus {s : State} {π π' : Plan} (h : Lists s π) (hlist : π'.list = π.list) (u : Nat) (st : Status) :
    Lists (s.setUnitStatus u st) π' where
  queue v hv := by rw [setUnitStatus_ok]; exact h.queue v hv
  level v hv p hp := by
    rw [hlist]
    refine (h.level v hv p hp).keep ?_ ?_ (fun _ _ => rfl) fun j hj => (h.waits v hv p hp j hj).keep rfl rfl rfl
    · rw [UnitQ.headAt, setUnitStatus_head]; rfl
    · rw [UnitQ.tailAt, setUnitStatus_tail]; rfl

/-- The unit of the job to be placed is idle and is claimed. -/
theorem Sched.claim {s : State} {π : Plan} {n u : Nat} (h : Sched s π) (hn : π.pend = some n) (hu : s.unitOf n = u)
    (hidle : (s.unitAt u).status = .idle) :
    u ∉ π.free ∧ Sched (s.setUnitStatus u .busy) { π with free := u :: π.free } := by
  obtain ⟨hlt, -, -, q, ho, -⟩ := h.locks.pend n hn
  have hult : u < s.cfg.numUnits := hu ▸ h.fit.unitOf_lt hlt
  have hstatus := fun v => setUnitStatus_status (h.fit.unit_lt hult) .busy v
  have hcur : π.cur u = none := by
    cases hc : π.cur u with
    | none => rfl
    | some j =>
      obtain ⟨hbusy, -⟩ := h.units.busy u hult j hc
      rw [hidle] at hbusy; cases hbusy
  have hnot : u ∉ π.free := fun hmem => by
    obtain ⟨-, -, hbusy, -⟩ := h.units.free u hmem
    rw [hidle] at hbusy; cases hbusy
  refine ⟨hnot, h.fit.same (setUnitStatus_sameTables _ _ _), h.lists.setUnitStatus (by rfl) _ _, ⟨?_, ?_, ?_, h.units.pending⟩,
    h.locks.congr rfl rfl rfl rfl rfl rfl⟩
  · intro v hv hc hfree
    rw [hstatus, if_neg fun he : u = v => hfree (he ▸ List.mem_cons_self)]
    exact h.units.idle v hv hc fun hmem => hfree (List.mem_cons_of_mem u hmem)
  · intro v hv j hc
    obtain ⟨hbusy, hrest⟩ := h.units.busy v hv j hc
    refine ⟨?_, hrest⟩
    rw [hstatus, hbusy, ite_self]
  · intro v hv
    rw [hstatus]
    obtain rfl | hv := List.mem_cons.1 hv
    · refine ⟨hult, hcur, if_pos rfl, ?_⟩
      rw [← hu]; exact h.async_of_locked hlt (by rw [ho]; rfl)
    · obtain ⟨hvlt, hvcur, hbusy, hasync⟩ := h.units.free v hv
      exact ⟨hvlt, hvcur, by rw [hbusy, ite_self], hasync⟩

/-- A unit that is handed over and for which nothing waits becomes idle. -/
theorem Sched.release {s : State} {π : Plan} {u : Nat} {free : List Nat} (h : Sched s π) (hfree : π.free = u :: free)
    (hnot : u ∉ free) (hnil : ∀ p < 4, π.list u p = []) : Sched (s.setUnitStatus u .idle) { π with free := free } := by
  obtain ⟨hult, hucur, -⟩ := h.units.free u (hfree ▸ List.mem_cons_self)
  have hstatus := fun v => setUnitStatus_status (h.fit.unit_lt hult) .idle v
  refine ⟨h.fit.same (setUnitStatus_sameTables _ _ _), h.lists.setUnitStatus (by rfl) _ _, ⟨?_, ?_, ?_, h.units.pending⟩,
    h.locks.congr rfl rfl rfl rfl rfl rfl⟩
  · intro v hv hc hvfree
    rw [hstatus]
    by_cases he : u = v
    · subst he; exact ⟨if_pos rfl, hnil⟩
    · rw [if_neg he]
      refine h.units.idle v hv hc fun hmem => ?_
      obtain rfl | hmem := List.mem_cons.1 (hfree ▸ hmem)
      · exact he rfl
      · exact hvfree hmem
  · intro v hv j hc
    obtain ⟨hbusy, hrest⟩ := h.units.busy v hv j hc
    have he : u ≠ v := fun he => by rw [he, hc] at hucur; cases hucur
    exact ⟨by rw [hstatus, if_neg he]; exact hbusy, hrest⟩
  · intro v hv
    obtain ⟨hvlt, hvcur, hbusy, hasync⟩ := h.units.free v (hfree ▸ List.mem_cons_of_mem u hv)
    exact ⟨hvlt, hvcur, by rw [hstatus, if_neg fun he : u = v => hnot (he ▸ hv)]; exact hbusy, hasync⟩

/-- The plan in which job `n` starts on unit `u`. -/
def Plan.start (π : Plan) (u n : Nat) (free : List Nat) : Plan :=
  { cur := Function.update π.cur u (some n), list := π.list, free := free, pend := none }

/-- The job to be placed becomes `PENDING` on its unit, which is handed over to it. -/
theorem Sched.start {s : State} {π : Plan} {n u : Nat} {free : List Nat} (h : Sched s π) (hn : π.pend = some n)
    (hu : s.unitOf n = u) (hfree : π.free = u :: free) (hnot : u ∉ free) : Sched (s.setJobResult n .pending) (π.start u n free) := by
  obtain ⟨hlt, hqueued, hplaced, q, ho, hcursor⟩ := h.locks.pend n hn
  obtain ⟨hult, hucur, hubusy, -⟩ := h.units.free u (hfree ▸ List.mem_cons_self)
  have hresult := fun j => setJobResult_result (h.fit.job_lt hlt) .pending j
  have hcurn : (π.start u n free).cur u = some n := Function.update_self ..
  have hcurne : ∀ v, v ≠ u → (π.start u n free).cur v = π.cur v := fun v hv => Function.update_of_ne hv ..
  have hunder : ∀ j, n ≠ j → ((π.start u n free).Underway (s.setJobResult n .pending) j ↔ π.Underway s j) := by
    intro j hj
    refine or_congr ?_ Iff.rfl
    show (π.start u n free).cur (s.unitOf j) = some j ↔ _
    by_cases he : s.unitOf j = u
    · rw [he, hcurn, hucur]; simp [hj]
    · rw [hcurne _ he]
  have hway : ∀ r, OnItsWay s π r → OnItsWay (s.setJobResult n .pending) (π.start u n free) r := by
    intro r hr
    refine hr.transfer rfl rfl rfl (fun j => by rw [setJobResult_owner]) (fun hc => .inl ?_) fun j hj hjq hjn => ?_
    · by_cases he : n = s.cursorJob r
      · rw [← he]
        refine .inl ?_
        show (π.start u n free).cur (s.unitOf n) = some n
        rw [hu, hcurn]
      · refine (hunder _ he).2 (hc.resolve_right fun hp => he ?_)
        rw [hn] at hp; exact Option.some.inj hp
    · have hne : n ≠ j := fun he => h.pend_not_later hn hr (he ▸ hj)
      rw [hresult, if_neg hne]
      exact ⟨hjq, fun hc => hjn ((hunder j hne).1 hc)⟩
  refine ⟨h.fit.same (setJob_sameTables _ _ _), ⟨h.lists.queue, fun v hv p hp => ?_⟩, ⟨?_, ?_, ?_, ?_⟩,
    h.locks.keep rfl (fun _ => rfl) (setJobResult_owner s n _) hway fun _ hm => nomatch hm⟩
  · refine (h.lists.level v hv p hp).keep rfl rfl (fun j _ => setJobResult_next s n .pending j) fun j hj => ?_
    have hne : n ≠ j := fun he => hplaced (he ▸ h.underway_of_mem hv hp hj)
    exact (h.lists.waits v hv p hp j hj).keep rfl (by rw [hresult, if_neg hne]) (setJobResult_owner s n _ j)
  · intro v hv hc hvfree
    have hne : v ≠ u := fun he => by rw [he, hcurn] at hc; cases hc
    rw [hcurne v hne] at hc
    refine h.units.idle v hv hc fun hmem => ?_
    rw [hfree] at hmem
    exact (List.mem_cons.1 hmem).elim hne hvfree
  · intro v hv j hc
    by_cases he : v = u
    · rw [he, hcurn] at hc
      cases hc
      exact ⟨he ▸ hubusy, hlt, hu.trans he.symm, by rw [hresult, if_pos rfl], by rw [setJobResult_owner, ho]; rfl⟩
    · rw [hcurne v he] at hc
      obtain ⟨hbusy, hjlt, hunit, hpending, hlocked⟩ := h.units.busy v hv j hc
      exact ⟨hbusy, hjlt, hunit, by rw [hresult, hpending, ite_self], by rw [setJobResult_owner]; exact hlocked⟩
  · intro v hv
    obtain ⟨hvlt, hvcur, hrest⟩ := h.units.free v (hfree ▸ List.mem_cons_of_mem u hv)
    exact ⟨hvlt, by rw [hcurne v fun he => hnot (he ▸ hv)]; exact hvcur, hrest⟩
  · intro j hj hpending
    show (π.start u n free).cur (s.unitOf j) = some j
    rw [hresult] at hpending
    by_cases he : n = j
    · rw [← he, hu, hcurn]
    · rw [if_neg he] at hpending
      have hc := h.units.pending j hj hpending
      rw [hcurne _ fun heu => by rw [heu, hucur] at hc; cases hc]
      exact hc

/-- The append of `CS3` in the jobs: the old tail's next job is the new one, which has none. -/
theorem enqueue_next {s : State} {n : Nat} (hn : n < s.job.length)
    (ht : ∀ t, (s.unitAt (s.unitOf n)).tailAt (s.cfg.jobAt n).priority = some t → t < s.job.length) (i : Nat) :
    ((enqueue n s).jobAt i).next =
      if (s.unitAt (s.unitOf n)).tailAt (s.cfg.jobAt n).priority = some i then some n
      else if n = i then none else (s.jobAt i).next := by
  simp only [enqueue]
  cases hc : (s.unitAt (s.unitOf n)).tailAt (s.cfg.jobAt n).priority with
  | none => exact setJobNext_next hn none i
  | some t =>
    refine (setJobNext_next (s := s.setJobNext n none) (by simpa using ht t hc) (some n) i).trans ?_
    simp only [setJobNext_next hn, Option.some.injEq]

@[simp] theorem enqueue_owner (n : Nat) (s : State) (i : Nat) : ((enqueue n s).jobAt i).owner = (s.jobAt i).owner := by
  simp only [enqueue]
  split
  · exact setJobNext_owner _ _ _ _
  · exact (setJobNext_owner _ _ _ _).trans (setJobNext_owner _ _ _ _)

@[simp] theorem enqueue_result (n : Nat) (s : State) (i : Nat) : ((enqueue n s).jobAt i).result = (s.jobAt i).result := by
  simp only [enqueue]
  split
  · exact setJobNext_result _ _ _ _
  · exact (setJobNext_result _ _ _ _).trans (setJobNext_result _ _ _ _)

theorem enqueue_unitAt {s : State} {n : Nat} (hu : s.unitOf n < s.unit.length) (v : Nat) :
    (enqueue n s).unitAt v =
      if s.unitOf n = v then (s.unitAt (s.unitOf n)).push (s.cfg.jobAt n).priority n else s.unitAt v := by
  obtain ⟨m, ⟨js, rfl⟩, he⟩ := enqueue_eq n s
  rw [he]
  exact unitAt_setUnit (s := { s with job := js }) hu _ v

/-- The plan in which job `n` waits at the end of level `p` of unit `u`. -/
def Plan.push (π : Plan) (u p n : Nat) : Plan :=
  { π with list := fun v i => if v = u ∧ i = p then π.list v i ++ [n] else π.list v i, pend := none }

theorem enqueue_status {s : State} {n : Nat} (hu : s.unitOf n < s.unit.length) (v : Nat) :
    ((enqueue n s).unitAt v).status = (s.unitAt v).status := by
  rw [enqueue_unitAt hu]
  split
  · rename_i he; rw [← he]; rfl
  · rfl

theorem enqueue_seqAt (n : Nat) (s : State) (q : Nat) : (enqueue n s).seqAt q = s.seqAt q := by
  obtain ⟨us, js, he⟩ := enqueue_frame n s; rw [he]; rfl

/-- The job to be placed is appended to the level of its unit and priority; the other levels are as they were. -/
theorem Sched.lists_enqueue {s : State} {π : Plan} {n u p : Nat} (h : Sched s π) (hn : π.pend = some n) (hu : s.unitOf n = u)
    (hp : (s.cfg.jobAt n).priority = p) : Lists (enqueue n s) (π.push u p n) := by
  obtain ⟨hlt, hqueued, hplaced, q, ho, -⟩ := h.locks.pend n hn
  have hult : u < s.cfg.numUnits := hu ▸ h.fit.unitOf_lt hlt
  have hplt : p < 4 := hp ▸ h.fit.priority_lt hlt
  have hqueue := h.lists.queue u hult
  have hcfg := (enqueue_sameTables n s).cfg
  have hlevel := h.lists.level u hult p hplt
  have hunitAt := enqueue_unitAt (s := s) (n := n) (by rw [hu]; exact h.fit.unit_lt hult)
  have hnext := enqueue_next (s := s) (n := n) (h.fit.job_lt hlt) fun t ht => by
    rw [hu, hp, hlevel.tail] at ht
    exact h.fit.job_lt (hlevel.waits t (List.mem_of_getLast? ht)).lt
  rw [hu, hp] at hunitAt
  simp only [hu, hp, hlevel.tail] at hnext
  have hkeep : ∀ {v i j}, MayWait s v i j → MayWait (enqueue n s) v i j := fun hw =>
    hw.keep hcfg (enqueue_result n s _) (enqueue_owner n s _)
  refine ⟨fun v hv => ?queue, fun v hv i hi => ?level⟩
  case queue =>
    rw [hcfg] at hv
    rw [hunitAt]
    split
    · exact UnitQ.push_ok hqueue hplt n
    · exact h.lists.queue v hv
  case level =>
    rw [hcfg] at hv
    have hne : ∀ k ∈ π.list v i, n ≠ k := fun k hk he => hplaced (he ▸ h.underway_of_mem hv hi hk)
    by_cases he : v = u ∧ i = p
    · obtain ⟨rfl, rfl⟩ := he
      rw [show (π.push v i n).list v i = π.list v i ++ [n] from if_pos ⟨rfl, rfl⟩]
      refine ⟨?_, ?_, ?_, fun j hj => hkeep ?_⟩
      · have hhead : ((enqueue n s).unitAt v).headAt i = if π.list v i = [] then some n else (s.unitAt v).headAt i := by
          rw [hunitAt, if_pos rfl, UnitQ.headAt_push hqueue hi]
          simp only [true_and, hlevel.tail, List.getLast?_eq_none_iff]
        rw [hhead]
        refine hlevel.linked.append hlevel.nodup (fun k hk => ?_) ?_
        · rw [hnext, if_neg (hne k hk)]
        · rw [hnext, if_pos rfl, if_neg fun hl => hne n (List.mem_of_getLast? hl) rfl]
      · rw [hunitAt, if_pos rfl, UnitQ.tailAt_push hqueue hi, if_pos rfl, List.getLast?_concat]
      · rw [List.nodup_append]
        refine ⟨hlevel.nodup, List.nodup_singleton n, fun a ha b hb => ?_⟩
        rw [List.mem_singleton.1 hb]
        exact (hne a ha).symm
      · rw [List.mem_append, List.mem_singleton] at hj
        obtain hj | rfl := hj
        · exact hlevel.waits j hj
        · exact ⟨hlt, hu, hp, hqueued, by rw [ho]; rfl⟩
    · rw [show (π.push u p n).list v i = π.list v i from if_neg he]
      refine (h.lists.level v hv i hi).keep ?_ ?_ (fun k hk => ?_) fun j hj => hkeep (h.lists.waits v hv i hi j hj)
      · rw [hunitAt]; split
        · rename_i hvu
          rw [UnitQ.headAt_push hqueue hplt, if_neg fun hc => he ⟨hvu.symm, hc.1.symm⟩, hvu]
        · rfl
      · rw [hunitAt]; split
        · rename_i hvu
          rw [UnitQ.tailAt_push hqueue hplt, if_neg fun hc => he ⟨hvu.symm, hc.symm⟩, hvu]
        · rfl
      · have hk' := h.lists.waits v hv i hi k hk
        have hlast : (π.list u p).getLast? ≠ some k := fun hl => by
          have hl' := hlevel.waits k (List.mem_of_getLast? hl)
          exact he ⟨hk'.unit.symm.trans hl'.unit, hk'.level.symm.trans hl'.level⟩
        rw [hnext, if_neg hlast, if_neg (hne k hk)]

/-- The job to be placed waits on its unit, which is not idle. -/
theorem Sched.enqueue {s : State} {π : Plan} {n u p : Nat} (h : Sched s π) (hn : π.pend = some n) (hu : s.unitOf n = u)
    (hp : (s.cfg.jobAt n).priority = p) (hbusy : (s.unitAt u).status ≠ .idle) : Sched (enqueue n s) (π.push u p n) := by
  obtain ⟨hlt, -⟩ := h.locks.pend n hn
  have hsame := enqueue_sameTables n s
  have hcfg := hsame.cfg
  have hunder : ∀ j, (π.push u p n).Underway (Machine.enqueue n s) j ↔ π.Underway s j ∨ j = n := by
    intro j
    rw [Plan.Underway, Plan.Underway, unitOf_congr hcfg, hcfg, or_assoc]
    refine or_congr Iff.rfl ?_
    show j ∈ (if s.unitOf j = u ∧ (s.cfg.jobAt j).priority = p then _ else _) ↔ _
    split
    · rw [List.mem_append, List.mem_singleton]
    · rename_i he
      refine (or_iff_left fun hj => he ?_).symm
      rw [hj]; exact ⟨hu, hp⟩
  have hway : ∀ r, OnItsWay s π r → OnItsWay (Machine.enqueue n s) (π.push u p n) r := by
    intro r hr
    refine hr.transfer hcfg (by rw [enqueue_seqAt]) (by rw [enqueue_seqAt]) (fun j => by rw [enqueue_owner]) (fun hc => .inl ((hunder _).2 ?_))
      fun j hj hjq hjn => ?_
    · refine hc.imp_right fun hc => ?_
      rw [hn] at hc; exact (Option.some.inj hc).symm
    · rw [enqueue_result, hunder]
      exact ⟨hjq, fun hc => hc.elim hjn fun he => h.pend_not_later hn hr (he ▸ hj)⟩
  refine ⟨h.fit.same hsame, h.lists_enqueue hn hu hp, h.units.keep hcfg (enqueue_status (h.fit.unit_lt (h.fit.unitOf_lt hlt)))
    (enqueue_result n s) (enqueue_owner n s) rfl rfl fun v hidle i hnil => ?_,
    h.locks.keep hcfg (enqueue_seqAt n s) (enqueue_owner n s) hway fun _ hm => nomatch hm⟩
  have hne : ¬ (v = u ∧ i = p) := fun he => hbusy (he.1 ▸ hidle)
  exact (if_neg hne).trans hnil

/-- Unit `u` after `CS4` took the head `j` of its level `p`. -/
def State.popJob (s : State) (u p j : Nat) : State :=
  (s.setUnit u ((s.unitAt u).pop p (s.jobAt j).next)).setJobNext j none

theorem popJob_sameTables (s : State) (u p j : Nat) : SameTables s (s.popJob u p j) :=
  { SameTables.refl s with unit := tset_length _ _ _, job := tset_length _ _ _ }

theorem popJob_unitAt {s : State} {u : Nat} (hu : u < s.unit.length) (p j v : Nat) :
    (s.popJob u p j).unitAt v = if u = v then (s.unitAt u).pop p (s.jobAt j).next else s.unitAt v :=
  unitAt_setUnit hu _ v

theorem popJob_next {s : State} {j : Nat} (hj : j < s.job.length) (u p i : Nat) :
    ((s.popJob u p j).jobAt i).next = if j = i then none else (s.jobAt i).next :=
  setJobNext_next (s := s.setUnit u _) hj none i

theorem popJob_owner (s : State) (u p j i : Nat) : ((s.popJob u p j).jobAt i).owner = (s.jobAt i).owner :=
  setJobNext_owner (s.setUnit u _) j none i

theorem popJob_result (s : State) (u p j i : Nat) : ((s.popJob u p j).jobAt i).result = (s.jobAt i).result :=
  setJobNext_result (s.setUnit u _) j none i

theorem popJob_status {s : State} {u : Nat} (hu : u < s.unit.length) (p j v : Nat) :
    ((s.popJob u p j).unitAt v).status = (s.unitAt v).status := by
  rw [popJob_unitAt hu]
  split
  · rename_i he; rw [← he]; rfl
  · rfl

/-- The plan in which job `j` has left level `p` of unit `u` for its unit. -/
def Plan.pop (π : Plan) (u p j : Nat) (rest : List Nat) : Plan :=
  { π with list := fun v i => if v = u ∧ i = p then rest else π.list v i, pend := some j }

/-- The head of the highest level leaves it; the other levels are as they were. -/
theorem Sched.lists_pop {s : State} {π : Plan} {u p j : Nat} {rest : List Nat} (h : Sched s π) (hu : u < s.cfg.numUnits)
    (hp : (p : Int) = (s.unitAt u).maxPrio) (hp4 : p < 4) (hlist : π.list u p = j :: rest) :
    Lists (s.popJob u p j) (π.pop u p j rest) := by
  have hqueue := h.lists.queue u hu
  have hlevel := h.lists.level u hu p hp4
  rw [hlist] at hlevel
  obtain ⟨hhead, hlinked⟩ := hlevel.linked
  obtain ⟨hnot, hnodup⟩ := List.nodup_cons.1 hlevel.nodup
  have hj := hlevel.waits j List.mem_cons_self
  have hunitAt := popJob_unitAt (h.fit.unit_lt hu) p j
  have hnext := popJob_next (h.fit.job_lt hj.lt) u p
  have hkeep : ∀ {v i k}, MayWait s v i k → MayWait (s.popJob u p j) v i k := fun hw =>
    hw.keep rfl (popJob_result s u p j _) (popJob_owner s u p j _)
  have hnil : (s.jobAt j).next = none ↔ rest = [] := by
    cases rest with
    | nil => exact iff_of_true hlinked rfl
    | cons m rest =>
      obtain ⟨hm, -⟩ := hlinked
      simp [hm]
  refine ⟨fun v hv => ?queue, fun v hv i hi => ?level⟩
  case queue =>
    rw [hunitAt]
    split
    · exact UnitQ.pop_ok hqueue hp _
    · exact h.lists.queue v hv
  case level =>
    by_cases he : v = u ∧ i = p
    · obtain ⟨rfl, rfl⟩ := he
      rw [show (π.pop v i j rest).list v i = rest from if_pos ⟨rfl, rfl⟩]
      refine ⟨?_, ?_, hnodup, fun k hk => hkeep (hlevel.waits k (List.mem_cons_of_mem j hk))⟩
      · rw [hunitAt, if_pos rfl, UnitQ.headAt_pop hqueue hi, if_pos rfl]
        refine hlinked.congr fun k hk => ?_
        rw [hnext, if_neg fun hjk : j = k => hnot (hjk ▸ hk)]
      · rw [hunitAt, if_pos rfl, UnitQ.tailAt_pop hqueue hi, hlevel.tail]
        simp only [true_and, hnil]
        cases rest with
        | nil => rfl
        | cons m rest => rw [if_neg (List.cons_ne_nil m rest), List.getLast?_cons_cons]
    · rw [show (π.pop u p j rest).list v i = π.list v i from if_neg he]
      refine (h.lists.level v hv i hi).keep ?_ ?_ (fun k hk => ?_) fun k hk => hkeep (h.lists.waits v hv i hi k hk)
      · rw [hunitAt]; split
        · rename_i hvu
          rw [UnitQ.headAt_pop hqueue hp4, if_neg fun hc => he ⟨hvu.symm, hc.symm⟩, hvu]
        · rfl
      · rw [hunitAt]; split
        · rename_i hvu
          rw [UnitQ.tailAt_pop hqueue hp4, if_neg fun hc => he ⟨hvu.symm, hc.1.symm⟩, hvu]
        · rfl
      · have hk' := h.lists.waits v hv i hi k hk
        rw [hnext, if_neg fun hjk : j = k => he ⟨hk'.unit.symm.trans (hjk ▸ hj.unit), hk'.level.symm.trans (hjk ▸ hj.level)⟩]

/-- The head of the highest level of a unit that is handed over is to be placed there. -/
theorem Sched.pop {s : State} {π : Plan} {u p j : Nat} {rest : List Nat} (h : Sched s π) (hu : u ∈ π.free)
    (hpend : π.pend = none) (hp : (p : Int) = (s.unitAt u).maxPrio) (hp4 : p < 4) (hlist : π.list u p = j :: rest) :
    Sched (s.popJob u p j) (π.pop u p j rest) := by
  obtain ⟨hult, hcur, -⟩ := h.units.free u hu
  have hj := h.lists.waits u hult p hp4 j (hlist ▸ List.mem_cons_self)
  have hnodup := (h.lists.level u hult p hp4).nodup
  rw [hlist, List.nodup_cons] at hnodup
  obtain ⟨q, ho⟩ := Option.isSome_iff_exists.1 hj.locked
  have hunder : ∀ i, (π.pop u p j rest).Underway (s.popJob u p j) i ↔ π.Underway s i ∧ i ≠ j := by
    intro i
    show π.cur (s.unitOf i) = some i ∨ i ∈ (if s.unitOf i = u ∧ (s.cfg.jobAt i).priority = p then _ else _) ↔ _
    rw [Plan.Underway]
    by_cases he : i = j
    · rw [he, hj.unit, hj.level, hcur, if_pos ⟨rfl, rfl⟩]
      simp [hnodup.1]
    · simp only [ne_eq, he, not_false_eq_true, and_true]
      refine or_congr Iff.rfl ?_
      split
      · rename_i hc
        rw [hc.1, hc.2, hlist, List.mem_cons]
        exact (or_iff_right he).symm
      · rfl
  have hway : ∀ r, OnItsWay s π r → OnItsWay (s.popJob u p j) (π.pop u p j rest) r := by
    intro r hr
    refine hr.transfer rfl rfl rfl (fun i => by rw [popJob_owner]) (fun hc => ?_) fun i hi hiq hin => ?_
    · have hc' := hc.resolve_right (by rw [hpend]; exact nofun)
      by_cases he : s.cursorJob r = j
      · exact .inr (congrArg some he.symm)
      · exact .inl ((hunder _).2 ⟨hc', he⟩)
    · rw [popJob_result, hunder]
      exact ⟨hiq, fun hc => hin hc.1⟩
  refine ⟨h.fit.same (popJob_sameTables s u p j), h.lists_pop hult hp hp4 hlist,
    h.units.keep rfl (popJob_status (h.fit.unit_lt hult) p j) (popJob_result s u p j) (popJob_owner s u p j) rfl rfl fun v _ i hnil => ?_,
    h.locks.keep rfl (fun _ => rfl) (popJob_owner s u p j) hway fun n hn => ?_⟩
  · by_cases he : v = u ∧ i = p
    · rw [he.1, he.2, hlist] at hnil; cases hnil
    · exact (if_neg he).trans hnil
  · obtain rfl : j = n := Option.some.inj hn
    refine ⟨hj.lt, by rw [popJob_result]; exact hj.queued, fun hc => ((hunder j).1 hc).2 rfl, q, ho, ?_⟩
    exact h.eq_cursorJob hj.lt ho (h.underway_of_mem hult hp4 (hlist ▸ List.mem_cons_self))

/-- What `CS4` does on a unit that is handed over: it becomes idle, or its next job starts (45_scheduler.md R342). -/
theorem Sched.popNext {s t : State} {π : Plan} {u : Nat} {n : Option Nat} (h : Sched s π) (hfree : π.free = [u])
    (hpend : π.pend = none) (hpop : popNext u s = .ok (n, t)) :
    n = none ∧ Sched t { π with free := [] } ∨
    ∃ j list, n = some j ∧ t.unitOf j = u ∧
      Sched t { cur := Function.update π.cur u (some j), list := list, free := [], pend := none } := by
  have hmem : u ∈ π.free := hfree ▸ List.mem_cons_self
  obtain ⟨hult, -⟩ := h.units.free u hmem
  have hqueue := h.lists.queue u hult
  obtain ⟨hneg, rfl, rfl⟩ | ⟨j, hneg, hhead, rfl, rfl⟩ := popNext_cases hpop
  · refine .inl ⟨rfl, h.release hfree (List.not_mem_nil) fun p hp => ?_⟩
    obtain ⟨-, -, -, -, hlevels⟩ := UnitQ.ok_iff.1 hqueue
    obtain ⟨-, hnone, -⟩ := hlevels p hp
    have hlinked := (h.lists.level u hult p hp).linked
    rw [hnone (by omega)] at hlinked
    cases hl : π.list u p with
    | nil => rfl
    | cons k rest => rw [hl] at hlinked; exact nomatch hlinked.1
  · obtain ⟨hp, hp4⟩ := UnitQ.maxPrio_toNat_lt hqueue hneg
    have hlevel := h.lists.level u hult _ hp4
    have hlinked := hlevel.linked
    obtain ⟨rest, hlist⟩ : ∃ rest, π.list u (s.unitAt u).maxPrio.toNat = j :: rest := by
      rw [hhead] at hlinked
      cases hl : π.list u (s.unitAt u).maxPrio.toNat with
      | nil => rw [hl] at hlinked; cases hlinked
      | cons k rest =>
        rw [hl] at hlinked
        exact ⟨rest, by rw [Option.some.inj hlinked.1]⟩
    have hj := hlevel.waits j (hlist ▸ List.mem_cons_self)
    exact .inr ⟨j, _, rfl, hj.unit, (h.pop hmem hpend hp hp4 hlist).start rfl hj.unit hfree List.not_mem_nil⟩

/-- What `CS3` does with the job to be placed: it starts on its idle unit, or waits there (45_scheduler.md R340). -/
theorem Sched.claimOrEnqueue {s : State} {π : Plan} {n : Nat} (h : Sched s π) (hn : π.pend = some n) :
    (∃ t, claimOrEnqueue n s = (true, t) ∧ s.unitOf n ∉ π.free ∧ Sched t (π.start (s.unitOf n) n π.free)) ∨
    ∃ t list, claimOrEnqueue n s = (false, t) ∧ Sched t { π with list := list, pend := none } := by
  by_cases hidle : (s.unitAt (s.unitOf n)).status = .idle
  · obtain ⟨hnot, hclaim⟩ := h.claim hn rfl hidle
    exact .inl ⟨_, if_pos hidle, hnot, hclaim.start hn rfl rfl hnot⟩
  · exact .inr ⟨_, _, if_neg hidle, h.enqueue hn rfl rfl hidle⟩

/-! What scheduling depends on -/

/-- The part of the state that the scheduler reads: neither the trace nor the hardware, and of `Dev` the job in flight alone. -/
structure Board where
  params : Params
  cfg : Cfg
  drvInit : Bool
  seqCache : List CacheEntry
  job : List JobState
  seq : List SeqState
  unit : List UnitQ
  cur : List (Option Nat)

def State.board (s : State) : Board where
  params := s.params
  cfg := s.cfg
  drvInit := s.drvInit
  seqCache := s.seqCache
  job := s.job
  seq := s.seq
  unit := s.unit
  cur := s.dev.map Dev.curJob

section
variable {s t : State} (h : t.board = s.board)
include h

theorem board_params : t.params = s.params := congrArg Board.params h
theorem board_cfg : t.cfg = s.cfg := congrArg Board.cfg h
theorem board_drvInit : t.drvInit = s.drvInit := congrArg Board.drvInit h
theorem board_seqCache : t.seqCache = s.seqCache := congrArg Board.seqCache h
theorem board_job : t.job = s.job := congrArg Board.job h
theorem board_seq : t.seq = s.seq := congrArg Board.seq h
theorem board_unit : t.unit = s.unit := congrArg Board.unit h
theorem board_cur : t.dev.map Dev.curJob = s.dev.map Dev.curJob := congrArg Board.cur h
theorem board_jobAt (j : Nat) : t.jobAt j = s.jobAt j := by rw [State.jobAt, State.jobAt, board_job h]
theorem board_seqAt (q : Nat) : t.seqAt q = s.seqAt q := by rw [State.seqAt, State.seqAt, board_seq h]
theorem board_unitAt (u : Nat) : t.unitAt u = s.unitAt u := by rw [State.unitAt, State.unitAt, board_unit h]

end

theorem tget_map {α β : Type} [Inhabited α] [Inhabited β] {f : α → β} (hf : f default = default) (l : List α) (i : Nat) :
    tget (l.map f) i = f (tget l i) := by
  by_cases hi : i < l.length
  · rw [tget_eq_getElem _ _ (by simpa using hi), tget_eq_getElem _ _ hi, List.getElem_map]
  · rw [tget_out _ _ (by simpa using hi), tget_out _ _ (by omega), hf]

theorem curOf_eq (s : State) (u : Nat) : s.curOf u = tget s.board.cur u := (tget_map (f := Dev.curJob) rfl s.dev u).symm

theorem board_curOf {s t : State} (h : t.board = s.board) : t.curOf = s.curOf := by
  funext u; rw [curOf_eq, curOf_eq, h]

theorem board_planOf {s t : State} (h : t.board = s.board) (list : Nat → Nat → List Nat) : t.planOf list = s.planOf list := by
  rw [State.planOf, State.planOf, board_curOf h]

theorem Fit.of_board {s t : State} (hs : Fit s) (h : t.board = s.board) : Fit t where
  wf := by rw [board_params h, board_cfg h]; exact hs.wf
  init := by rw [board_drvInit h]; exact hs.init
  cache := by rw [board_seqCache h, board_params h, board_cfg h]; exact hs.cache
  unit := by rw [board_unit h]; exact hs.unit
  dev := by simpa only [List.length_map, hs.dev] using congrArg List.length (board_cur h)
  job := by rw [board_job h, board_cfg h]; exact hs.job
  seq := by rw [board_seq h, board_cfg h]; exact hs.seq

/-- A plan that one state follows, every state with the same board follows. -/
theorem Sched.of_board {s t : State} {π : Plan} (hs : Sched s π) (h : t.board = s.board) : Sched t π where
  fit := hs.fit.of_board h
  lists := by
    refine ⟨fun u hu => ?_, fun u hu p hp => ?_⟩
    · rw [board_cfg h] at hu
      rw [board_unitAt h]; exact hs.lists.queue u hu
    · rw [board_cfg h] at hu
      exact (hs.lists.level u hu p hp).keep (by rw [board_unitAt h]) (by rw [board_unitAt h])
        (fun j _ => by rw [board_jobAt h])
        fun j hj => (hs.lists.waits u hu p hp j hj).keep (board_cfg h) (by rw [board_jobAt h]) (by rw [board_jobAt h])
  units := hs.units.keep (board_cfg h) (fun u => by rw [board_unitAt h]) (fun j => by rw [board_jobAt h])
    (fun j => by rw [board_jobAt h]) rfl rfl fun _ _ _ hnil => hnil
  locks := hs.locks.congr (board_cfg h) (board_job h) (board_seq h) rfl rfl rfl

/-! The segments `CS7` and `CS6` (45_scheduler.md R345, 46_cancel.md R374) -/

/-- Sequence `q` finishes its job `j`: the job is `OK` and unlocked, perhaps with other jobs of the sequence. -/
structure Finishes (s t : State) (j q : Nat) : Prop where
  fit : Fit t
  cfg : t.cfg = s.cfg
  unit : t.unit = s.unit
  seqAt : ∀ r, q ≠ r → t.seqAt r = s.seqAt r
  next : ∀ i, (t.jobAt i).next = (s.jobAt i).next
  result : ∀ i, (t.jobAt i).result = if j = i then .ok else (s.jobAt i).result
  other : ∀ i, (s.jobAt i).owner ≠ some q → (t.jobAt i).owner = (s.jobAt i).owner
  owner : ∀ i r, (t.jobAt i).owner = some r → j ≠ i ∧ (s.jobAt i).owner = some r

theorem Finishes.of_board {s t m : State} {j q : Nat} (ht : Finishes s t j q) (h : m.board = t.board) : Finishes s m j q where
  fit := ht.fit.of_board h
  cfg := (board_cfg h).trans ht.cfg
  unit := (board_unit h).trans ht.unit
  seqAt r hr := by rw [board_seqAt h]; exact ht.seqAt r hr
  next i := by rw [board_jobAt h]; exact ht.next i
  result i := by rw [board_jobAt h]; exact ht.result i
  other i := by rw [board_jobAt h]; exact ht.other i
  owner i := by rw [board_jobAt h]; exact ht.owner i

/-- The plan after a job has left its unit. -/
def Plan.leave (π : Plan) (u : Nat) (pend : Option Nat) : Plan :=
  { cur := Function.update π.cur u none, list := π.list, free := u :: π.free, pend := pend }

theorem Plan.leave_cur_self (π : Plan) (u : Nat) (pend : Option Nat) : (π.leave u pend).cur u = none :=
  Function.update_self ..

theorem Plan.leave_cur_ne (π : Plan) {u v : Nat} (hv : v ≠ u) (pend : Option Nat) : (π.leave u pend).cur v = π.cur v :=
  Function.update_of_ne hv ..

section
variable {s t : State} {π : Plan} {u j q : Nat} (h : Sched s π) (hu : u < s.cfg.numUnits) (hcur : π.cur u = some j)
include h hu hcur

/-- A job that waits is not the one in flight. -/
theorem Sched.ne_of_waits {v p i : Nat} (hv : v < s.cfg.numUnits) (hp : p < 4) (hi : i ∈ π.list v p) : j ≠ i := fun he => by
  obtain ⟨-, -, -, hpending, -⟩ := h.units.busy u hu j hcur
  have hqueued := (h.lists.waits v hv p hp i hi).queued
  rw [← he, hpending] at hqueued
  cases hqueued

variable (hf : Finishes s t j q)
include hf

/-- What is underway once job `j` has left its unit. -/
theorem Sched.underway_leave (pend : Option Nat) {i : Nat} (hi : i < s.cfg.numJobs) :
    (π.leave u pend).Underway t i ↔ π.Underway s i ∧ j ≠ i := by
  obtain ⟨-, -, hunit, -⟩ := h.units.busy u hu j hcur
  rw [Plan.Underway, Plan.Underway, unitOf_congr hf.cfg, hf.cfg, or_and_right]
  refine or_congr ?_ (iff_self_and.2 fun hmem => h.ne_of_waits hu hcur (h.fit.unitOf_lt hi) (h.fit.priority_lt hi) hmem)
  by_cases he : s.unitOf i = u
  · rw [he, π.leave_cur_self, hcur]; simp
  · rw [π.leave_cur_ne he]
    exact iff_self_and.2 fun _ hji => he (hji ▸ hunit)

variable (ho : (s.jobAt j).owner = some q)
include ho

/-- The other jobs underway stay as they are. -/
theorem Sched.finish_keep {i : Nat} (hi : i < s.cfg.numJobs) (hiu : π.Underway s i) (hne : j ≠ i) :
    (t.jobAt i).result = (s.jobAt i).result ∧ (t.jobAt i).owner = (s.jobAt i).owner := by
  obtain ⟨-, hj, -⟩ := h.units.busy u hu j hcur
  have hother : (s.jobAt i).owner ≠ some q := fun hiq =>
    hne ((h.eq_cursorJob hj ho (h.underway_of_cur hu hcur)).trans (h.eq_cursorJob hi hiq hiu).symm)
  exact ⟨by rw [hf.result, if_neg hne], hf.other i hother⟩

theorem Sched.lists_finish (pend : Option Nat) : Lists t (π.leave u pend) := by
  have hunitAt : ∀ v, t.unitAt v = s.unitAt v := fun v => by rw [State.unitAt, State.unitAt, hf.unit]
  refine ⟨fun v hv => ?_, fun v hv p hp => ?_⟩ <;> rw [hf.cfg] at hv
  · rw [hunitAt]; exact h.lists.queue v hv
  · refine (h.lists.level v hv p hp).keep (by rw [hunitAt]) (by rw [hunitAt]) (fun i _ => hf.next i) fun i hi => ?_
    have hwait := h.lists.waits v hv p hp i hi
    obtain ⟨hresult, howner⟩ := h.finish_keep hu hcur hf ho hwait.lt (h.underway_of_mem hv hp hi) (h.ne_of_waits hu hcur hv hp hi)
    exact hwait.keep hf.cfg hresult howner

theorem Sched.units_finish (pend : Option Nat) : Units t (π.leave u pend) := by
  obtain ⟨hubusy, hj, hunit, -, -⟩ := h.units.busy u hu j hcur
  have hunitAt : ∀ v, t.unitAt v = s.unitAt v := fun v => by rw [State.unitAt, State.unitAt, hf.unit]
  refine ⟨fun v hv hc hvfree => ?_, fun v hv i hc => ?_, fun v hv => ?_, fun i hi hpending => ?_⟩
  · rw [hf.cfg] at hv
    obtain ⟨hne, hvfree⟩ := not_or.1 (mt List.mem_cons.2 hvfree)
    rw [π.leave_cur_ne hne] at hc
    rw [hunitAt]; exact h.units.idle v hv hc hvfree
  · rw [hf.cfg] at hv
    have hne : v ≠ u := fun he => by rw [he, π.leave_cur_self] at hc; cases hc
    rw [π.leave_cur_ne hne] at hc
    obtain ⟨hbusy, hi, hiunit, hipending, hilocked⟩ := h.units.busy v hv i hc
    obtain ⟨hresult, howner⟩ := h.finish_keep hu hcur hf ho hi (h.underway_of_cur hv hc)
      fun he => hne (by rw [← hiunit, ← he, hunit])
    exact ⟨by rw [hunitAt]; exact hbusy, by rw [hf.cfg]; exact hi, by rw [unitOf_congr hf.cfg]; exact hiunit,
      by rw [hresult]; exact hipending, by rw [howner]; exact hilocked⟩
  · rw [hf.cfg, hunitAt]
    obtain rfl | hv := List.mem_cons.1 hv
    · refine ⟨hu, π.leave_cur_self .., hubusy, ?_⟩
      rw [← hunit]; exact h.async_of_locked hj (by rw [ho]; rfl)
    · obtain ⟨hvlt, hvcur, hrest⟩ := h.units.free v hv
      exact ⟨hvlt, by rw [π.leave_cur_ne fun he => by rw [he, hcur] at hvcur; cases hvcur]; exact hvcur, hrest⟩
  · rw [hf.cfg] at hi
    rw [hf.result] at hpending
    rw [unitOf_congr hf.cfg]
    have hne : j ≠ i := fun he => by rw [if_pos he] at hpending; cases hpending
    rw [if_neg hne] at hpending
    have hc := h.units.pending i hi hpending
    rw [π.leave_cur_ne fun he => by rw [he, hcur] at hc; exact hne (Option.some.inj hc)]
    exact hc

variable (hnone : π.pend = none)
include hnone

/-- The other sequences stay on their way. -/
theorem Sched.onItsWay_finish (pend : Option Nat) {r : Nat} (hr : r < s.cfg.numSeqs) (hne : q ≠ r) (hway : OnItsWay s π r) :
    OnItsWay t (π.leave u pend) r := by
  have howner : ∀ i, (t.jobAt i).owner = some r ↔ (s.jobAt i).owner = some r := fun i =>
    ⟨fun hi => (hf.owner i r hi).2, fun hi => by
      rw [hf.other i (by rw [hi]; exact fun hc => hne (Option.some.inj hc).symm)]; exact hi⟩
  have hnej : ∀ i, (s.jobAt i).owner = some r → j ≠ i := fun i hi he => by
    rw [← he, ho] at hi; exact hne (Option.some.inj hi)
  refine hway.transfer hf.cfg (by rw [hf.seqAt r hne]) (by rw [hf.seqAt r hne]) howner (fun hc => .inl ?_) fun i hi hiq hin => ?_
  · rw [hnone] at hc
    refine (h.underway_leave hu hcur hf pend (h.fit.seqJob_lt hr (cursorJob_mem hway.cursor))).2 ⟨hc.resolve_right nofun, ?_⟩
    exact hnej _ hway.cursorJob_owner
  · rw [hf.result, if_neg (hnej i (hway.later_owner hi)),
      h.underway_leave hu hcur hf pend (h.fit.seqJob_lt hr (List.mem_of_mem_drop hi))]
    exact ⟨hiq, fun hc => hin hc.1⟩

/-- The job that a sequence finishes leaves its unit, which is handed over; what becomes of the sequence itself is left to show. -/
theorem Sched.finish {pend : Option Nat}
    (hlock : ∀ i < s.cfg.numJobs, (t.jobAt i).owner = some q → (t.seqAt q).result = .pending ∨ (t.seqAt q).result = .cancelled)
    (hpending : (t.seqAt q).result = .pending → OnItsWay t (π.leave u pend) q)
    (hcancelled : (t.seqAt q).result = .cancelled → ∀ i < s.cfg.numJobs, (t.jobAt i).owner ≠ some q)
    (hpend : ∀ n, pend = some n → n = t.cursorJob q ∧ n ∈ (s.cfg.seqAt q).jobs ∧ (t.jobAt n).owner = some q ∧
      (s.jobAt n).result = .queued ∧ ¬ π.Underway s n) : Sched t (π.leave u pend) := by
  obtain ⟨-, hj, -⟩ := h.units.busy u hu j hcur
  obtain ⟨hq, hmem, -⟩ := h.owner_onItsWay hj ho
  have hasync : s.seqIsSync q = false := by
    rw [← h.fit.isSync_eq hq hmem]; exact h.async_of_locked hj (by rw [ho]; rfl)
  refine ⟨hf.fit, h.lists_finish hu hcur hf ho pend, h.units_finish hu hcur hf ho pend,
    ⟨fun i hi r hr => ?_, fun r hr hres => ?_, fun r hr hres => ?_, fun n hn => ?_⟩⟩
  · rw [hf.cfg] at hi ⊢
    obtain ⟨-, hir⟩ := hf.owner i r hr
    obtain ⟨hrlt, hmemr, hres⟩ := h.locks.lock i hi r hir
    refine ⟨hrlt, hmemr, ?_⟩
    by_cases hne : q = r
    · subst hne; exact hlock i hi hr
    · rw [hf.seqAt r hne]; exact hres
  · rw [hf.cfg] at hr
    rw [seqIsSync_congr hf.cfg]
    by_cases hne : q = r
    · subst hne; exact ⟨hasync, hpending hres⟩
    · rw [hf.seqAt r hne] at hres
      exact (h.locks.pending r hr hres).imp_right (h.onItsWay_finish hu hcur hf ho hnone pend hr hne)
  · rw [hf.cfg] at hr
    rw [seqIsSync_congr hf.cfg, hf.cfg]
    by_cases hne : q = r
    · subst hne; exact ⟨hasync, .inr (hcancelled hres)⟩
    · rw [hf.seqAt r hne] at hres
      exact (h.locks.cancelled r hr hres).imp_right
        (Or.imp (h.onItsWay_finish hu hcur hf ho hnone pend hr hne) fun hno i hi hir => hno i hi (hf.owner i r hir).2)
  · obtain ⟨hcursor, hmemn, hno, hqueued, hnot⟩ := hpend n hn
    have hnlt := h.fit.seqJob_lt hq hmemn
    rw [hf.cfg, h.underway_leave hu hcur hf pend hnlt, hf.result, if_neg fun he : j = n => hnot (he ▸ h.underway_of_cur hu hcur)]
    exact ⟨hnlt, hqueued, fun hc => hnot hc.1, q, hno, hcursor⟩

end

/-- `CS7` finishes a job (45_scheduler.md R345). -/
theorem finishJob_finishes {s t : State} {j q : Nat} (hs : Fit s) (hj : j < s.cfg.numJobs) (ho : (s.jobAt j).owner = some q)
    (h : finishJob j q s = .ok t) : Finishes s t j q := by
  obtain ⟨e, -, rfl⟩ := finishJob_cases h
  have hjobAt := jobAt_setJob (hs.job_lt hj) { s.jobAt j with owner := none, result := .ok }
  refine ⟨(hs.same (setJob_sameTables _ _ _)).same (setSeq_sameTables _ _ _), rfl, rfl,
    fun r hr => seqAt_setSeq_ne _ _ _ _ hr, fun i => ?_, fun i => ?_, fun i hi => ?_, fun i r hr => ?_⟩
  · rw [setSeq_jobAt, hjobAt]
    split
    · rename_i he; rw [← he]
    · rfl
  · rw [setSeq_jobAt, hjobAt]; split <;> rfl
  · rw [setSeq_jobAt, hjobAt, if_neg fun he : j = i => hi (he ▸ ho)]
  · rw [setSeq_jobAt, hjobAt] at hr
    split at hr
    · cases hr
    · exact ⟨‹_›, hr⟩

/-- The sequence that `CS7` wrote. -/
theorem finishJob_seqAt {s t : State} {j q : Nat} (hs : Fit s) (hq : q < s.cfg.numSeqs) (h : finishJob j q s = .ok t) :
    (s.seqAt q).finishOne = .ok (t.seqAt q) := by
  obtain ⟨e, he, rfl⟩ := finishJob_cases h
  rw [he, seqAt_setSeq_same (s.setJob j _) q e (hs.seq_lt hq)]

/-- The jobs of the list that `q` still owns are unlocked, and nothing else changes (46_cancel.md R375). -/
theorem unlockRemaining_spec {q : Nat} {l : List Nat} {s : State} (hl : ∀ j ∈ l, j < s.job.length) :
    SameTables s (unlockRemaining q l s) ∧ (unlockRemaining q l s).seq = s.seq ∧ (unlockRemaining q l s).unit = s.unit ∧
    (∀ i, ((unlockRemaining q l s).jobAt i).next = (s.jobAt i).next) ∧
    (∀ i, ((unlockRemaining q l s).jobAt i).result = (s.jobAt i).result) ∧
    ∀ i, ((unlockRemaining q l s).jobAt i).owner = if i ∈ l ∧ (s.jobAt i).owner = some q then none else (s.jobAt i).owner := by
  induction l generalizing s with
  | nil => exact ⟨SameTables.refl s, rfl, rfl, fun _ => rfl, fun _ => rfl, fun i => (if_neg fun hc => nomatch hc.1).symm⟩
  | cons j rest ih =>
    have hj := hl j List.mem_cons_self
    have hrest : ∀ i ∈ rest, i < s.job.length := fun i hi => hl i (List.mem_cons_of_mem j hi)
    simp only [unlockRemaining]
    split
    · rename_i ho
      obtain ⟨htables, hseq, hunit, hnext, hresult, howner⟩ := ih (s := s.setJobOwner j none) (by simpa using hrest)
      have hfirst : SameTables s (s.setJobOwner j none) := setJob_sameTables _ _ _
      refine ⟨hfirst.trans htables, hseq, hunit, fun i => ?_, fun i => ?_, fun i => ?_⟩
      · rw [hnext, setJobOwner_next]
      · rw [hresult, setJobOwner_result]
      · rw [howner, setJobOwner_owner hj]
        by_cases he : j = i
        · subst he; simp [ho]
        · simp only [if_neg he, List.mem_cons, Ne.symm he, false_or]
    · rename_i ho
      obtain ⟨htables, hseq, hunit, hnext, hresult, howner⟩ := ih hrest
      refine ⟨htables, hseq, hunit, hnext, hresult, fun i => ?_⟩
      rw [howner]
      refine if_congr (and_congr_left fun hi => ?_) rfl rfl
      rw [List.mem_cons]
      exact (or_iff_right fun he : i = j => ho (he ▸ hi)).symm

/-- The clean-up of a cancelled sequence unlocks what it has left. -/
theorem Finishes.unlockRemaining {s t : State} {j q : Nat} {l : List Nat} (h : Finishes s t j q) (hl : ∀ i ∈ l, i < s.cfg.numJobs) :
    Finishes s (unlockRemaining q l t) j q := by
  have hlt : ∀ i ∈ l, i < t.job.length := fun i hi => by rw [h.fit.job, h.cfg]; exact hl i hi
  obtain ⟨htables, hseq, hunit, hnext, hresult, howner⟩ := unlockRemaining_spec (q := q) hlt
  refine ⟨h.fit.same htables, htables.cfg.trans h.cfg, hunit.trans h.unit, fun r hr => ?_, fun i => ?_, fun i => ?_, fun i hi => ?_,
    fun i r hr => ?_⟩
  · rw [State.seqAt, hseq]; exact h.seqAt r hr
  · rw [hnext]; exact h.next i
  · rw [hresult]; exact h.result i
  · rw [howner, if_neg, h.other i hi]
    exact fun hc => hi (h.owner i q hc.2).2
  · rw [howner] at hr
    split at hr
    · cases hr
    · exact h.owner i r hr

section
variable {s t : State} {π : Plan} {u j q : Nat} (h : Sched s π) (hu : u < s.cfg.numUnits) (hcur : π.cur u = some j)
  (ho : (s.jobAt j).owner = some q) (hnone : π.pend = none) (hf : Finishes s t j q)
include h hu hcur ho hnone hf

/-- A cancelled sequence ends with no job locked. -/
theorem Sched.finish_cancelled (hres : (t.seqAt q).result = .cancelled) (hno : ∀ i < s.cfg.numJobs, (t.jobAt i).owner ≠ some q) :
    Sched t (π.leave u none) :=
  h.finish hu hcur hf ho hnone (fun i hi hc => absurd hc (hno i hi)) (fun hc => by rw [hres] at hc; cases hc)
    (fun _ => hno) nofun

/-- A sequence that finishes its last job has no job locked. -/
theorem Sched.finish_last (hres : (t.seqAt q).result = .ok) (hlast : (s.seqAt q).remainingJobs = 1) : Sched t (π.leave u none) := by
  obtain ⟨-, hj, -⟩ := h.units.busy u hu j hcur
  obtain ⟨-, -, hway⟩ := h.owner_onItsWay hj ho
  have hcount := hway.count
  refine h.finish hu hcur hf ho hnone (fun i hi hc => ?_) (fun hc => by rw [hres] at hc; cases hc)
    (fun hc => by rw [hres] at hc; cases hc) nofun
  obtain ⟨hne, hio⟩ := hf.owner i q hc
  obtain ⟨-, hmem, -⟩ := h.owner_onItsWay hi hio
  obtain hi | hi := hway.owned_cases hmem hio
  · exact absurd ((h.eq_cursorJob hj ho (h.underway_of_cur hu hcur)).trans hi.symm) hne
  · rw [List.drop_eq_nil_of_le (by omega)] at hi
    cases hi

/-- A sequence with jobs left has its next one to be placed. -/
theorem Sched.finish_next (hother : ∀ i, j ≠ i → (t.jobAt i).owner = (s.jobAt i).owner)
    (hres : (t.seqAt q).result = .pending) (hcursor : (t.seqAt q).cursor = (s.seqAt q).cursor + 1)
    (hleft : (s.seqAt q).remainingJobs = (t.seqAt q).remainingJobs + 1) (hpos : (t.seqAt q).remainingJobs ≠ 0) :
    Sched t (π.leave u (some (t.cursorJob q))) := by
  obtain ⟨-, hj, -⟩ := h.units.busy u hu j hcur
  obtain ⟨hq, -, hway⟩ := h.owner_onItsWay hj ho
  have hjcur := h.eq_cursorJob hj ho (h.underway_of_cur hu hcur)
  have hcount := hway.count
  have hlt : (t.seqAt q).cursor < (t.cfg.seqAt q).jobs.length := by rw [hf.cfg]; omega
  have hdrop : (s.cfg.seqAt q).jobs.drop ((s.seqAt q).cursor + 1) =
      t.cursorJob q :: (s.cfg.seqAt q).jobs.drop ((s.seqAt q).cursor + 2) := by
    have hd := drop_cursor hlt
    rw [hf.cfg, hcursor] at hd; exact hd
  have hnodup : ((s.cfg.seqAt q).jobs.drop ((s.seqAt q).cursor + 1)).Nodup := hway.nodup.sublist (List.drop_sublist _ _)
  have hnotj : ∀ i ∈ (s.cfg.seqAt q).jobs.drop ((s.seqAt q).cursor + 1), j ≠ i := fun i hi he =>
    hway.cursorJob_not_later (hjcur ▸ he ▸ hi)
  have howned : ∀ i ∈ (s.cfg.seqAt q).jobs.drop ((s.seqAt q).cursor + 1), (t.jobAt i).owner = some q := fun i hi => by
    rw [hother i (hnotj i hi)]; exact hway.later_owner hi
  have hnext : t.cursorJob q ∈ (s.cfg.seqAt q).jobs.drop ((s.seqAt q).cursor + 1) := by rw [hdrop]; exact List.mem_cons_self
  have hunitOf := unitOf_congr hf.cfg
  have hunder : ∀ i, (π.leave u (some (t.cursorJob q))).Underway t i → π.Underway s i := by
    rintro i (hc | hc)
    · refine .inl ?_
      rw [hunitOf] at hc
      by_cases he : s.unitOf i = u
      · rw [he, show (π.leave u _).cur u = none from Function.update_self ..] at hc; cases hc
      · rw [show (π.leave u _).cur (s.unitOf i) = _ from Function.update_of_ne he ..] at hc; exact hc
    · refine .inr ?_
      rw [hunitOf, hf.cfg] at hc; exact hc
  refine h.finish hu hcur hf ho hnone (fun _ _ _ => .inl hres) (fun _ => ?_) (fun hc => by rw [hres] at hc; cases hc)
    fun n hn => ?_
  · refine ⟨by rw [hf.cfg]; exact hway.nodup, hlt, by rw [hf.cfg]; omega, ?_, ?_, .inr rfl, ?_⟩
    · rw [hf.cfg, hcursor, List.take_add_one, List.getElem?_eq_getElem hway.cursor, ← cursorJob_eq hway.cursor, ← hjcur]
      intro i hi hc
      obtain ⟨hne, hio⟩ := hf.owner i q hc
      obtain hi | hi := List.mem_append.1 hi
      · exact hway.past i hi hio
      · exact hne (Option.some.inj (Option.mem_toList.1 hi))
    · rw [hf.cfg, hcursor]; exact howned
    · rw [hf.cfg, hcursor]
      intro i hi
      have hi' : i ∈ (s.cfg.seqAt q).jobs.drop ((s.seqAt q).cursor + 1) := by rw [hdrop]; exact List.mem_cons_of_mem _ hi
      obtain ⟨hqueued, hnot⟩ := hway.later i hi'
      rw [hf.result, if_neg (hnotj i hi')]
      exact ⟨hqueued, fun hc => hnot (hunder i hc)⟩
  · obtain rfl := Option.some.inj hn
    obtain ⟨hqueued, hnot⟩ := hway.later _ hnext
    exact ⟨rfl, List.mem_of_mem_drop hnext, howned _ hnext, hqueued, hnot⟩

end

/-! Locking and accepting a sequence (45_scheduler.md R330 to R333) -/

theorem list_ext_tget {α : Type} [Inhabited α] {l l' : List α} (hlen : l.length = l'.length) (h : ∀ i, tget l i = tget l' i) :
    l = l' := by
  refine List.ext_getElem hlen fun i hi hi' => ?_
  rw [← tget_eq_getElem l i hi, ← tget_eq_getElem l' i hi', h]

/-- `t` is `s` with the jobs of a list locked by `q`. -/
structure LockedBy (s t : State) (q : Nat) (l : List Nat) : Prop where
  frame : ∃ js, t = { s with job := js }
  length : t.job.length = s.job.length
  next : ∀ i, (t.jobAt i).next = (s.jobAt i).next
  result : ∀ i, (t.jobAt i).result = (s.jobAt i).result
  owner : ∀ i, (t.jobAt i).owner = if i ∈ l then some q else (s.jobAt i).owner

theorem LockedBy.nil (s : State) (q : Nat) : LockedBy s s q [] :=
  ⟨⟨s.job, rfl⟩, rfl, fun _ => rfl, fun _ => rfl, fun _ => (if_neg List.not_mem_nil).symm⟩

theorem LockedBy.snoc {s t : State} {q j : Nat} {l : List Nat} (h : LockedBy s t q l) (hj : j < s.job.length) :
    LockedBy s (t.setJobOwner j (some q)) q (l ++ [j]) := by
  obtain ⟨⟨js, rfl⟩, hlength, hnext, hresult, howner⟩ := h
  refine ⟨⟨_, rfl⟩, (setJobOwner_job_length _ _ _).trans hlength, fun i => (setJobOwner_next _ _ _ i).trans (hnext i),
    fun i => (setJobOwner_result _ _ _ i).trans (hresult i), fun i => ?_⟩
  rw [setJobOwner_owner (hlength.symm ▸ hj), howner]
  by_cases he : j = i
  · simp [he]
  · simp [he, Ne.symm he]

/-- Releasing the jobs an attempt has locked gives back the state before the attempt (R333). -/
theorem unlockAll_lockedBy {s t : State} {q : Nat} {l : List Nat} (h : LockedBy s t q l) (hlt : ∀ j ∈ l, j < s.job.length)
    (hfree : ∀ j ∈ l, (s.jobAt j).owner = none) : unlockAll l t = s := by
  have hspec : ∀ (l : List Nat) (t : State), (∀ j ∈ l, j < t.job.length) → (∃ js, unlockAll l t = { t with job := js }) ∧
      (unlockAll l t).job.length = t.job.length ∧
      ∀ i, (unlockAll l t).jobAt i = if i ∈ l then { t.jobAt i with owner := none } else t.jobAt i := by
    intro l
    induction l with
    | nil => exact fun t _ => ⟨⟨t.job, rfl⟩, rfl, fun i => (if_neg List.not_mem_nil).symm⟩
    | cons j rest ih =>
      intro t hl
      have hj := hl j List.mem_cons_self
      obtain ⟨⟨js, hframe⟩, hlength, hjobAt⟩ := ih (t.setJobOwner j none) (by simpa using fun i hi => hl i (List.mem_cons_of_mem j hi))
      refine ⟨⟨js, hframe⟩, hlength.trans (setJobOwner_job_length _ _ _), fun i => ?_⟩
      rw [unlockAll, hjobAt, State.setJobOwner, jobAt_setJob hj]
      by_cases he : j = i
      · subst he; simp
      · simp only [if_neg he, List.mem_cons, Ne.symm he, false_or]
  obtain ⟨⟨js, rfl⟩, hlength, hnext, hresult, howner⟩ := h
  obtain ⟨⟨js', hframe⟩, hlength', hjobAt⟩ := hspec l _ (fun j hj => hlength.symm ▸ hlt j hj)
  have hjobs : (unlockAll l { s with job := js }).job = s.job := by
    refine list_ext_tget (hlength'.trans hlength) fun i => ?_
    refine (hjobAt i).trans ?_
    have hn := hnext i
    have hr := hresult i
    have ho := howner i
    show _ = s.jobAt i
    generalize State.jobAt { s with job := js } i = e at hn hr ho ⊢
    split
    · rename_i hi
      cases e; simp only at hn hr
      rw [hn, hr, ← hfree i hi]
    · rename_i hi
      rw [if_neg hi] at ho
      cases e; simp only at hn hr ho
      rw [hn, hr, ho]
  rw [hframe] at hjobs ⊢
  rw [show js' = s.job from hjobs]

/-- The loop of `LockJobs` locks all jobs, which were free and different, or none (R331, R333). -/
theorem lockFrom_spec {s t : State} {q : Nat} {locked l : List Nat} (h : LockedBy s t q locked)
    (hlt : ∀ j ∈ locked ++ l, j < s.job.length) (hnodup : locked.Nodup) (hfree : ∀ j ∈ locked, (s.jobAt j).owner = none) :
    lockFrom q locked l t = (false, s) ∨
      ∃ m, lockFrom q locked l t = (true, m) ∧ LockedBy s m q (locked ++ l) ∧ (locked ++ l).Nodup ∧
        ∀ j ∈ locked ++ l, (s.jobAt j).owner = none := by
  induction l generalizing locked t with
  | nil => rw [List.append_nil]; exact .inr ⟨t, rfl, h, hnodup, hfree⟩
  | cons j rest ih =>
    have hj : j < s.job.length := hlt j (by simp)
    simp only [lockFrom]
    split
    · exact .inl (Prod.ext rfl (unlockAll_lockedBy h (fun i hi => hlt i (List.mem_append_left _ hi)) hfree))
    · rename_i hnone
      rw [h.owner] at hnone
      have hnot : j ∉ locked := fun hmem => by simp [hmem] at hnone
      rw [if_neg hnot, Option.not_isSome_iff_eq_none] at hnone
      have hassoc : locked ++ [j] ++ rest = locked ++ j :: rest := List.append_assoc locked [j] rest
      have hstep := ih (h.snoc hj) (by rw [hassoc]; exact hlt)
        (List.nodup_append.2 ⟨hnodup, List.nodup_singleton j, fun a ha b hb => by
          rw [List.mem_singleton.1 hb]; exact fun hab => hnot (hab ▸ ha)⟩)
        (fun i hi => (List.mem_append.1 hi).elim (hfree i) fun hi => by rw [List.mem_singleton.1 hi]; exact hnone)
      rw [hassoc] at hstep
      exact hstep

/-- `LockJobs` (R331, R332): the sequence is not `PENDING` and all its jobs are locked, or nothing changes. -/
theorem lockJobs_spec {s : State} {q : Nat} (hlt : ∀ j ∈ (s.cfg.seqAt q).jobs, j < s.job.length) :
    lockJobs q s = (false, s) ∨
      ∃ m, lockJobs q s = (true, m) ∧ (s.seqAt q).result ≠ .pending ∧ LockedBy s m q (s.cfg.seqAt q).jobs ∧
        (s.cfg.seqAt q).jobs.Nodup ∧ ∀ j ∈ (s.cfg.seqAt q).jobs, (s.jobAt j).owner = none := by
  unfold lockJobs
  split
  · exact .inl rfl
  · rename_i hres
    split
    · rename_i j hjobs
      rw [hjobs] at hlt ⊢
      split
      · exact .inl rfl
      · rename_i hnone
        refine .inr ⟨_, rfl, hres, (LockedBy.nil s q).snoc (hlt j List.mem_cons_self), List.nodup_singleton j, fun i hi => ?_⟩
        rw [List.mem_singleton.1 hi]
        exact Option.not_isSome_iff_eq_none.1 hnone
    · obtain hno | ⟨m, hm, hlocked, hnodup, hfree⟩ :=
        lockFrom_spec (l := (s.cfg.seqAt q).jobs) (LockedBy.nil s q) hlt List.nodup_nil (fun _ hj => nomatch hj)
      · exact .inl hno
      · exact .inr ⟨m, hm, hres, hlocked, hnodup, hfree⟩

/-- Sequence `q` is accepted: `PENDING`, with all its jobs locked and `QUEUED`. -/
structure Accepts (s t : State) (q : Nat) : Prop where
  fit : Fit t
  cfg : t.cfg = s.cfg
  unit : t.unit = s.unit
  seqAt : ∀ r, q ≠ r → t.seqAt r = s.seqAt r
  seq : t.seqAt q = { result := .pending, remainingJobs := (s.cfg.seqAt q).jobs.length, cursor := 0 }
  next : ∀ i, (t.jobAt i).next = (s.jobAt i).next
  result : ∀ i, (t.jobAt i).result = if i ∈ (s.cfg.seqAt q).jobs then .queued else (s.jobAt i).result
  owner : ∀ i, (t.jobAt i).owner = if i ∈ (s.cfg.seqAt q).jobs then some q else (s.jobAt i).owner

theorem queueAll_spec {l : List Nat} {s : State} (hlt : ∀ j ∈ l, j < s.job.length) :
    SameTables s (queueAll l s) ∧ (queueAll l s).seq = s.seq ∧ (queueAll l s).unit = s.unit ∧
    (∀ i, ((queueAll l s).jobAt i).next = (s.jobAt i).next) ∧ (∀ i, ((queueAll l s).jobAt i).owner = (s.jobAt i).owner) ∧
    ∀ i, ((queueAll l s).jobAt i).result = if i ∈ l then .queued else (s.jobAt i).result := by
  induction l generalizing s with
  | nil => exact ⟨SameTables.refl s, rfl, rfl, fun _ => rfl, fun _ => rfl, fun i => (if_neg List.not_mem_nil).symm⟩
  | cons j rest ih =>
    obtain ⟨htables, hseq, hunit, hnext, howner, hresult⟩ := ih (s := s.setJobResult j .queued)
      (by simpa using fun i hi => hlt i (List.mem_cons_of_mem j hi))
    have hfirst : SameTables s (s.setJobResult j .queued) := setJob_sameTables _ _ _
    refine ⟨hfirst.trans htables, hseq, hunit, fun i => ?_, fun i => ?_, fun i => ?_⟩
    · rw [queueAll, hnext, setJobResult_next]
    · rw [queueAll, howner, setJobResult_owner]
    · rw [queueAll, hresult, setJobResult_result (hlt j List.mem_cons_self)]
      by_cases he : j = i
      · simp [he]
      · simp [he, Ne.symm he]

/-- What `async_accept` makes of a state whose board is that of the locked one (R330). -/
theorem acceptSeq_accepts {s m m' : State} {q : Nat} (hs : Fit s) (hq : q < s.cfg.numSeqs)
    (hm : LockedBy s m q (s.cfg.seqAt q).jobs) (hb : m'.board = m.board) : Accepts s (acceptSeq q m') q := by
  obtain ⟨⟨js, rfl⟩, hlength, hnext, hresult, howner⟩ := hm
  have hcfg : m'.cfg = s.cfg := (board_cfg hb).trans rfl
  have hfit : Fit m' :=
    Fit.of_board (s := { s with job := js }) ⟨hs.wf, hs.init, hs.cache, hs.unit, hs.dev, hlength.trans hs.job, hs.seq⟩ hb
  have hfit' : Fit (m'.setSeq q { result := .pending, remainingJobs := (m'.cfg.seqAt q).jobs.length, cursor := 0 }) :=
    hfit.same (setSeq_sameTables _ _ _)
  have hlt : ∀ j ∈ (m'.cfg.seqAt q).jobs, j < m'.job.length := fun j hj =>
    hfit.job_lt (hfit.seqJob_lt (by rw [hcfg]; exact hq) hj)
  obtain ⟨htables, hseq, hunit, hnext', howner', hresult'⟩ := queueAll_spec (s := m'.setSeq q _) hlt
  have hseqAt : ∀ r, (acceptSeq q m').seqAt r =
      (m'.setSeq q { result := .pending, remainingJobs := (m'.cfg.seqAt q).jobs.length, cursor := 0 }).seqAt r := fun r => by
    rw [State.seqAt, acceptSeq, hseq]; rfl
  refine ⟨hfit'.same htables, htables.cfg.trans hcfg, hunit.trans ((board_unit hb).trans rfl), fun r hr => ?_, ?_, fun i => ?_,
    fun i => ?_, fun i => ?_⟩
  · rw [hseqAt, seqAt_setSeq_ne _ _ _ _ hr, board_seqAt hb]; rfl
  · rw [hseqAt, seqAt_setSeq_same _ _ _ (hfit.seq_lt (by rw [hcfg]; exact hq)), hcfg]
  · rw [acceptSeq, hnext', setSeq_jobAt, board_jobAt hb, hnext]
  · rw [acceptSeq, hresult', setSeq_jobAt, board_jobAt hb, hresult, hcfg]
  · rw [acceptSeq, howner', setSeq_jobAt, board_jobAt hb, howner]

theorem Accepts.keep {s t : State} {q i : Nat} (h : Accepts s t q) (hi : i ∉ (s.cfg.seqAt q).jobs) :
    (t.jobAt i).result = (s.jobAt i).result ∧ (t.jobAt i).owner = (s.jobAt i).owner :=
  ⟨by rw [h.result, if_neg hi], by rw [h.owner, if_neg hi]⟩

/-- The plan with a job to be placed. -/
def Plan.place (π : Plan) (n : Nat) : Plan := { π with pend := some n }

theorem Plan.underway_place (π : Plan) {s t : State} (hcfg : t.cfg = s.cfg) (n i : Nat) :
    (π.place n).Underway t i ↔ π.Underway s i := by
  rw [Plan.Underway, Plan.Underway, unitOf_congr hcfg, hcfg]; rfl

section
variable {s t : State} {π : Plan} {q : Nat} (h : Sched s π) (hfree : ∀ j ∈ (s.cfg.seqAt q).jobs, (s.jobAt j).owner = none)
include h hfree

/-- A job underway is locked, and so none of a sequence whose jobs are free. -/
theorem Sched.not_mem_of_underway {i : Nat} (hi : i < s.cfg.numJobs) (hiu : π.Underway s i) : i ∉ (s.cfg.seqAt q).jobs := fun hmem => by
  have hsome : (s.jobAt i).owner.isSome = true := by
    obtain hc | hc := hiu
    · obtain ⟨-, -, -, -, ho⟩ := h.units.busy _ (h.fit.unitOf_lt hi) i hc
      exact ho
    · exact (h.lists.waits _ (h.fit.unitOf_lt hi) _ (h.fit.priority_lt hi) i hc).locked
  rw [hfree i hmem] at hsome
  cases hsome

variable (ha : Accepts s t q)
include ha

theorem Sched.accept_keep {i : Nat} (hi : i < s.cfg.numJobs) (hiu : π.Underway s i) :
    (t.jobAt i).result = (s.jobAt i).result ∧ (t.jobAt i).owner = (s.jobAt i).owner :=
  ha.keep (h.not_mem_of_underway hfree hi hiu)

omit h in
theorem Accepts.owner_iff {r : Nat} (hne : q ≠ r) (i : Nat) : (t.jobAt i).owner = some r ↔ (s.jobAt i).owner = some r := by
  by_cases hmem : i ∈ (s.cfg.seqAt q).jobs
  · rw [ha.owner, if_pos hmem, hfree i hmem]; simp [hne]
  · rw [(ha.keep hmem).2]

theorem Sched.lists_accept (n : Nat) : Lists t (π.place n) := by
  have hunitAt : ∀ u, t.unitAt u = s.unitAt u := fun u => by rw [State.unitAt, State.unitAt, ha.unit]
  refine ⟨fun u hu => ?_, fun u hu p hp => ?_⟩ <;> rw [ha.cfg] at hu
  · rw [hunitAt]; exact h.lists.queue u hu
  · refine (h.lists.level u hu p hp).keep (by rw [hunitAt]) (by rw [hunitAt]) (fun i _ => ha.next i) fun i hi => ?_
    have hwait := h.lists.waits u hu p hp i hi
    obtain ⟨hresult, ho⟩ := h.accept_keep hfree ha hwait.lt (h.underway_of_mem hu hp hi)
    exact hwait.keep ha.cfg hresult ho

theorem Sched.units_accept (n : Nat) : Units t (π.place n) := by
  have hunitAt : ∀ u, t.unitAt u = s.unitAt u := fun u => by rw [State.unitAt, State.unitAt, ha.unit]
  refine ⟨fun u hu => ?_, fun u hu i hc => ?_, fun u hu => ?_, fun i hi hpending => ?_⟩
  · rw [ha.cfg] at hu
    rw [hunitAt]; exact h.units.idle u hu
  · rw [ha.cfg] at hu
    obtain ⟨hbusy, hi, hunit, hpending, hlocked⟩ := h.units.busy u hu i hc
    obtain ⟨hresult, ho⟩ := h.accept_keep hfree ha hi (h.underway_of_cur hu hc)
    exact ⟨by rw [hunitAt]; exact hbusy, by rw [ha.cfg]; exact hi, by rw [unitOf_congr ha.cfg]; exact hunit,
      by rw [hresult]; exact hpending, by rw [ho]; exact hlocked⟩
  · rw [ha.cfg, hunitAt]; exact h.units.free u hu
  · rw [ha.cfg] at hi
    rw [ha.result] at hpending
    split at hpending
    · cases hpending
    · rw [unitOf_congr ha.cfg]; exact h.units.pending i hi hpending

omit h in
/-- The other sequences stay on their way. -/
theorem Accepts.onItsWay (hnone : π.pend = none) (n : Nat) {r : Nat} (hne : q ≠ r) (hway : OnItsWay s π r) :
    OnItsWay t (π.place n) r := by
  refine hway.transfer ha.cfg (by rw [ha.seqAt r hne]) (by rw [ha.seqAt r hne]) (ha.owner_iff hfree hne) (fun hc => .inl ?_)
    fun i hi hiq hin => ?_
  · rw [hnone] at hc
    exact (π.underway_place ha.cfg n _).2 (hc.resolve_right nofun)
  · have hnot : i ∉ (s.cfg.seqAt q).jobs := fun hmem => by
      have hio := hway.later_owner hi
      rw [hfree i hmem] at hio; cases hio
    rw [(ha.keep hnot).1, π.underway_place ha.cfg]
    exact ⟨hiq, hin⟩

variable (hq : q < s.cfg.numSeqs)
include hq

omit hfree in
theorem Sched.accept_first_mem : t.cursorJob q ∈ (s.cfg.seqAt q).jobs := by
  have hmem := cursorJob_mem (s := t) (q := q) (by rw [ha.seq, ha.cfg]; exact h.fit.seqJobs_pos hq)
  rwa [ha.cfg] at hmem

/-- The accepted sequence is on its way, its first job to be placed. -/
theorem Sched.onItsWay_accepted (hnodup : (s.cfg.seqAt q).jobs.Nodup) : OnItsWay t (π.place (t.cursorJob q)) q := by
  refine ⟨by rw [ha.cfg]; exact hnodup, by rw [ha.seq, ha.cfg]; exact h.fit.seqJobs_pos hq, by rw [ha.seq, ha.cfg]; rfl, ?_, ?_,
    .inr rfl, ?_⟩
  · rw [ha.seq]; exact fun i hi => nomatch hi
  · rw [ha.cfg, ha.seq]
    exact fun i hi => by rw [ha.owner, if_pos (List.mem_of_mem_drop hi)]
  · rw [ha.cfg, ha.seq]
    intro i hi
    have hmem := List.mem_of_mem_drop hi
    rw [ha.result, if_pos hmem, π.underway_place ha.cfg]
    exact ⟨rfl, fun hc => h.not_mem_of_underway hfree (h.fit.seqJob_lt hq hmem) hc hmem⟩

/-- Scheduling is in order with an accepted sequence, whose first job is to be placed. -/
theorem Sched.accept (hnone : π.pend = none) (hasync : s.seqIsSync q = false) (hnodup : (s.cfg.seqAt q).jobs.Nodup) :
    Sched t (π.place (t.cursorJob q)) := by
  have hfirst := h.accept_first_mem ha hq
  refine ⟨ha.fit, h.lists_accept hfree ha _, h.units_accept hfree ha _,
    ⟨fun i hi r hr => ?_, fun r hr hres => ?_, fun r hr hres => ?_, fun n hn => ?_⟩⟩
  · rw [ha.cfg] at hi ⊢
    by_cases hne : q = r
    · subst hne
      refine ⟨hq, ?_, .inl (by rw [ha.seq])⟩
      by_cases hmem : i ∈ (s.cfg.seqAt q).jobs
      · exact hmem
      · rw [(ha.keep hmem).2] at hr
        obtain ⟨-, hmem', -⟩ := h.locks.lock i hi q hr
        exact hmem'
    · rw [ha.seqAt r hne]
      exact h.locks.lock i hi r ((ha.owner_iff hfree hne i).1 hr)
  · rw [ha.cfg] at hr
    rw [seqIsSync_congr ha.cfg]
    by_cases hne : q = r
    · subst hne; exact ⟨hasync, h.onItsWay_accepted hfree ha hq hnodup⟩
    · rw [ha.seqAt r hne] at hres
      exact (h.locks.pending r hr hres).imp_right (ha.onItsWay hfree hnone _ hne)
  · rw [ha.cfg] at hr
    rw [seqIsSync_congr ha.cfg, ha.cfg]
    by_cases hne : q = r
    · subst hne; rw [ha.seq] at hres; cases hres
    · rw [ha.seqAt r hne] at hres
      exact (h.locks.cancelled r hr hres).imp_right
        (Or.imp (ha.onItsWay hfree hnone _ hne) fun hno i hi hc => hno i hi ((ha.owner_iff hfree hne i).1 hc))
  · obtain rfl := Option.some.inj hn
    have hnlt := h.fit.seqJob_lt hq hfirst
    rw [ha.cfg, ha.result, if_pos hfirst, π.underway_place ha.cfg, ha.owner, if_pos hfirst]
    exact ⟨hnlt, rfl, fun hc => h.not_mem_of_underway hfree hnlt hc hfirst, q, rfl, rfl⟩

end

/-! `CANCEL`, and the results on synchronous units -/

/-- The lists of the queues do not depend on the sequences. -/
theorem Lists.setSeq {s : State} {π : Plan} (h : Lists s π) (q : Nat) (e : SeqState) : Lists (s.setSeq q e) π where
  queue := h.queue
  level u hu p hp :=
    (h.level u hu p hp).keep rfl rfl (fun _ _ => rfl) fun j hj => (h.waits u hu p hp j hj).keep rfl rfl rfl

/-- The occupancy of the units does not depend on the sequences. -/
theorem Units.setSeq {s : State} {π : Plan} (h : Units s π) (q : Nat) (e : SeqState) : Units (s.setSeq q e) π :=
  h.keep rfl (fun _ => rfl) (fun _ => rfl) (fun _ => rfl) rfl rfl fun _ _ _ hnil => hnil

/-- A sequence that is cancelled stays on its way until its current job is over (46_cancel.md R370). -/
theorem Sched.cancel {s : State} {π : Plan} {q : Nat} (h : Sched s π) (hq : q < s.cfg.numSeqs)
    (hres : (s.seqAt q).result = .pending) : Sched (s.setSeqResult q .cancelled) π := by
  have hseqAt := seqAt_setSeq (h.fit.seq_lt hq) { s.seqAt q with result := .cancelled }
  have hcursor : ∀ r, ((s.setSeqResult q .cancelled).seqAt r).cursor = (s.seqAt r).cursor :=
    fun r => proj_tset (f := SeqState.cursor) (by rfl) r
  have hcount : ∀ r, ((s.setSeqResult q .cancelled).seqAt r).remainingJobs = (s.seqAt r).remainingJobs :=
    fun r => proj_tset (f := SeqState.remainingJobs) (by rfl) r
  have hway : ∀ r, OnItsWay s π r → OnItsWay (s.setSeqResult q .cancelled) π r := fun r hr =>
    hr.transfer rfl (hcursor r) (hcount r) (fun _ => Iff.rfl) id fun _ _ hqueued hnot => ⟨hqueued, hnot⟩
  refine ⟨h.fit.same (setSeq_sameTables _ _ _), h.lists.setSeq q _, h.units.setSeq q _,
    ⟨fun j hj r hr => ?_, fun r hr hp => ?_, fun r hr hc => ?_, fun n hn => ?_⟩⟩
  · obtain ⟨hrlt, hmem, hstate⟩ := h.locks.lock j hj r hr
    refine ⟨hrlt, hmem, ?_⟩
    rw [State.setSeqResult, hseqAt]
    split
    · exact .inr rfl
    · exact hstate
  · rw [State.setSeqResult, hseqAt] at hp
    split at hp
    · cases hp
    · exact (h.locks.pending r hr hp).imp_right (hway r)
  · rw [State.setSeqResult, hseqAt] at hc
    split at hc
    · rename_i he
      subst he
      exact (h.locks.pending q hq hres).imp_right fun hp => .inl (hway q hp)
    · exact (h.locks.cancelled r hr hc).imp_right (Or.imp_left (hway r))
  · obtain ⟨hlt, hqueued, hnot, r, ho, hn⟩ := h.locks.pend n hn
    exact ⟨hlt, hqueued, hnot, r, ho, hn.trans (cursorJob_congr (s := s) (t := s.setSeqResult q .cancelled) rfl (hcursor r)).symm⟩

/-- The result of a job on a synchronous unit is of no concern to the scheduler, unless it is `PENDING`. -/
theorem Sched.setJobResult_sync {s : State} {π : Plan} {j : Nat} {r : JobResult} (h : Sched s π) (hj : j < s.cfg.numJobs)
    (hsync : (s.cfg.unitAt (s.unitOf j)).isSync = true) (hr : r ≠ .pending) : Sched (s.setJobResult j r) π := by
  have hunlocked : (s.jobAt j).owner.isSome = false := by
    cases ho : (s.jobAt j).owner.isSome with
    | false => rfl
    | true => exact absurd (h.async_of_locked hj ho) (by rw [hsync]; nofun)
  have hresult : ∀ i, (s.jobAt i).owner.isSome = true → ((s.setJobResult j r).jobAt i).result = (s.jobAt i).result := fun i hi => by
    rw [setJobResult_result (h.fit.job_lt hj), if_neg fun he : j = i => by rw [← he, hunlocked] at hi; cases hi]
  have howner := setJobResult_owner s j r
  have hway : ∀ q, OnItsWay s π q → OnItsWay (s.setJobResult j r) π q := fun q hq =>
    hq.transfer rfl rfl rfl (fun i => by rw [howner]) id fun i hi hqueued hnot =>
      ⟨by rw [hresult i (by rw [hq.later_owner hi]; rfl)]; exact hqueued, hnot⟩
  refine ⟨h.fit.same (setJob_sameTables _ _ _), ⟨h.lists.queue, fun u hu p hp => ?_⟩,
    ⟨h.units.idle, fun u hu i hc => ?_, h.units.free, ?_⟩,
    h.locks.keep rfl (fun _ => rfl) howner hway fun n hn => ?_⟩
  · refine (h.lists.level u hu p hp).keep rfl rfl (fun i _ => setJobResult_next s j r i) fun i hi => ?_
    have hwait := h.lists.waits u hu p hp i hi
    exact hwait.keep rfl (hresult i hwait.locked) (howner i)
  · obtain ⟨hbusy, hi, hunit, hpending, hlocked⟩ := h.units.busy u hu i hc
    exact ⟨hbusy, hi, hunit, by rw [hresult i hlocked]; exact hpending, by rw [howner]; exact hlocked⟩
  · intro i hi hpending
    rw [setJobResult_result (h.fit.job_lt hj)] at hpending
    split at hpending
    · exact absurd hpending hr
    · exact h.units.pending i hi hpending
  · obtain ⟨hlt, hqueued, hnot, q, ho, hcursor⟩ := h.locks.pend n hn
    exact ⟨hlt, by rw [hresult n (by rw [ho]; rfl)]; exact hqueued, hnot, q, ho, hcursor⟩

/-- The result of a synchronous sequence is of no concern to the scheduler, unless it says that jobs are on their way. -/
theorem Sched.setSeqResult_sync {s : State} {π : Plan} {q : Nat} {r : SeqResult} (h : Sched s π) (hq : q < s.cfg.numSeqs)
    (hsync : s.seqIsSync q = true) (hpending : r ≠ .pending) (hcancelled : r ≠ .cancelled) : Sched (s.setSeqResult q r) π := by
  have hother : ∀ i, q ≠ i → (s.setSeqResult q r).seqAt i = s.seqAt i := fun i => seqAt_setSeq_ne s q i _
  have hself : ((s.setSeqResult q r).seqAt q).result = r := by
    rw [State.setSeqResult, seqAt_setSeq_same _ _ _ (h.fit.seq_lt hq)]
  have hasync : ∀ i, s.seqIsSync i = false → q ≠ i := fun i hi he => by rw [he, hi] at hsync; cases hsync
  have hway : ∀ i, q ≠ i → OnItsWay s π i → OnItsWay (s.setSeqResult q r) π i := fun i hi hwayi =>
    hwayi.transfer rfl (by rw [hother i hi]) (by rw [hother i hi]) (fun _ => Iff.rfl) id fun _ _ hqueued hnot => ⟨hqueued, hnot⟩
  have howner : ∀ j < s.cfg.numJobs, ∀ i, (s.jobAt j).owner = some i → q ≠ i := fun j hj i hi => by
    obtain ⟨hilt, -, hres | hres⟩ := h.locks.lock j hj i hi
    · exact hasync i (h.locks.pending i hilt hres).1
    · exact hasync i (h.locks.cancelled i hilt hres).1
  refine ⟨h.fit.same (setSeq_sameTables _ _ _), h.lists.setSeq q _, h.units.setSeq q _,
    ⟨fun j hj i hi => ?_, fun i hi hp => ?_, fun i hi hc => ?_, fun n hn => ?_⟩⟩
  · rw [hother i (howner j hj i hi)]; exact h.locks.lock j hj i hi
  · have hne : q ≠ i := fun he => hpending (hself.symm.trans (he ▸ hp))
    rw [hother i hne] at hp
    exact (h.locks.pending i hi hp).imp_right (hway i hne)
  · have hne : q ≠ i := fun he => hcancelled (hself.symm.trans (he ▸ hc))
    rw [hother i hne] at hc
    exact (h.locks.cancelled i hi hc).imp_right (Or.imp_left (hway i hne))
  · obtain ⟨hlt, hqueued, hnot, i, ho, hn⟩ := h.locks.pend n hn
    refine ⟨hlt, hqueued, hnot, i, ho, hn.trans (cursorJob_congr (s := s) (t := s.setSeqResult q r) rfl ?_).symm⟩
    rw [hother i (howner n hlt i ho)]

/-! What runs between two segments when no procedure waits (20_memory.md R110, R111) -/

/-- A stimulus that starts no procedure between two segments: a move of other hardware or of the host in memory, or a command where
commands do not nest. -/
def Stimulus.startsNothing (nests : Bool) : Stimulus → Bool
  | .port (.command _ _ _ _) => !nests
  | .port (.event _) => false
  | .take _ | .shift _ _ | .clockIn _ _ | .setBusy _ _ | .dmaTx _ | .dmaRx _ | .hwReset _ | .hostStore _ _ | .hostConfig _ _ => true

theorem noProcedureWaits_eq (s : State) :
    s.noProcedureWaits = s.inputs.all fun a => a.what.startsNothing s.params.hostPreemption := by
  refine congrArg s.inputs.all (funext fun a => ?_)
  rcases a with ⟨w, ⟨⟨⟩ | ⟨⟩⟩ | ⟨⟩ | ⟨⟩ | ⟨⟩ | ⟨⟩ | ⟨⟩ | ⟨⟩ | ⟨⟩ | ⟨⟩ | ⟨⟩⟩ <;> rfl

/-- What holds of every waiting stimulus holds of the one that `pick` chooses and of those it leaves. -/
theorem pick_all {p : Stimulus → Bool} {adm : Stimulus → Bool} {l : List Arrival} (h : (l.all fun a => p a.what) = true) :
    ((pick adm l).2.all fun a => p a.what) = true ∧ ∀ x, (pick adm l).1 = some x → p x = true := by
  induction l with
  | nil => exact ⟨h, fun _ hx => nomatch hx⟩
  | cons a rest ih =>
    obtain ⟨ha, hrest⟩ := Bool.and_eq_true_iff.1 (List.all_cons ▸ h)
    obtain ⟨hleft, hchosen⟩ := ih hrest
    simp only [pick]
    split
    · exact ⟨h, fun _ hx => nomatch hx⟩
    · exact ⟨h, fun _ hx => nomatch hx⟩
    · split
      · exact ⟨hrest, fun x hx => Option.some.inj hx ▸ ha⟩
      · exact ⟨by rw [List.all_cons, ha]; exact hleft, hchosen⟩

theorem dmaCount_inputs (s : State) (u ch : Nat) (k : BitVec 4) : (s.dmaCount u ch k).inputs = s.inputs := by
  simp only [State.dmaCount]
  split
  · split <;> rfl
  · rfl

theorem popRx_inputs (s : State) (u : Nat) : (s.popRx u).2.inputs = s.inputs := by
  unfold State.popRx; split <;> rfl

/-- A move takes nothing from the waiting stimuli. -/
theorem agentMove_inputs {x : Stimulus} {s t : State} (h : agentMove x s = .ok t) : t.inputs = s.inputs := by
  cases x with
  | port | take | shift | setBusy | hwReset | hostStore | hostConfig => cases h; rfl
  | clockIn u v =>
    simp only [agentMove] at h
    split at h <;> cases h <;> rfl
  | dmaTx u =>
    simp only [agentMove, dmaTxMove] at h
    split at h
    · split at h
      · cases h; exact dmaCount_inputs _ _ _ _
      · split at h
        · cases h
        · split at h <;> cases h
          exact dmaCount_inputs _ _ _ _
      · cases h; rfl
    · cases h; rfl
  | dmaRx u =>
    simp only [agentMove, dmaRxMove] at h
    split at h
    · split at h
      · cases h; exact (dmaCount_inputs _ _ _ _).trans (popRx_inputs s u)
      · split at h
        · cases h
        · split at h <;> cases h
          exact (dmaCount_inputs _ _ _ _).trans (popRx_inputs s u)
      · cases h; rfl
    · cases h; rfl

/-- The board stands as `b` says, and nothing that waits starts a procedure. -/
structure Calm (b : Board) (s : State) : Prop where
  board : s.board = b
  waits : s.noProcedureWaits = true

theorem SameBlock.board {s t : State} (h : SameBlock s t) : t.board = s.board := by
  simp only [State.board, h.params, h.cfg, h.drvInit, h.seqCache, h.job, h.seq, h.unit, h.dev]

theorem agentMove_board {x : Stimulus} {s t : State} (h : agentMove x s = .ok t) : t.board = s.board := by
  obtain ⟨a, c, rfl⟩ | hsame := agentMove_cases h
  · rfl
  · exact hsame.board

/-- `Dev[u]` may change as it likes but for the job in flight. -/
theorem setDev_board (s : State) (u : Nat) {d : Dev} (hd : d.curJob = s.curOf u) : (s.setDev u d).board = s.board := by
  have hcur : (tset s.dev u d).map Dev.curJob = s.dev.map Dev.curJob := by
    refine list_ext_tget ?_ fun i => ?_
    · rw [List.length_map, List.length_map, tset_length]
    · rw [tget_map (f := Dev.curJob) rfl, tget_map (f := Dev.curJob) rfl]; exact proj_tset (f := Dev.curJob) hd i
  show { s.board with cur := (tset s.dev u d).map Dev.curJob } = s.board
  rw [hcur]; rfl

namespace Calm

variable {b : Board} {s t : State}

theorem refl (h : s.noProcedureWaits = true) : Calm s.board s := ⟨rfl, h⟩

/-- A change of neither the board nor the waiting stimuli. -/
theorem keep (hs : Calm b s) (hboard : t.board = s.board) (hinputs : t.inputs = s.inputs) : Calm b t where
  board := hboard.trans hs.board
  waits := by
    have hw := hs.waits
    rw [noProcedureWaits_eq] at hw ⊢
    rw [hinputs, board_params hboard]; exact hw

theorem setDev (hs : Calm b s) (u : Nat) {d : Dev} (hd : d.curJob = s.curOf u) : Calm b (s.setDev u d) :=
  hs.keep (setDev_board s u hd) rfl

theorem emit (hs : Calm b s) (e : Entry) : Calm b (s.emit e) := hs.keep rfl rfl

theorem setDma (hs : Calm b s) (ch : Nat) (d : DmaChan) : Calm b (s.setDma ch d) := hs.keep rfl rfl

theorem move (hs : Calm b s) {x : Stimulus} (h : agentMove x s = .ok t) : Calm b t :=
  hs.keep (agentMove_board h) (agentMove_inputs h)

/-- Whatever `pick` chooses, the stimuli that it leaves start nothing, and neither does the chosen one. -/
theorem pick (hs : Calm b s) (adm : Stimulus → Bool) :
    Calm b { s with inputs := (pick adm s.inputs).2 } ∧
    ∀ x, (Machine.pick adm s.inputs).1 = some x → x.startsNothing s.params.hostPreemption = true := by
  have hw := hs.waits
  rw [noProcedureWaits_eq] at hw
  obtain ⟨hleft, hchosen⟩ := pick_all (adm := adm) hw
  exact ⟨⟨hs.board, (noProcedureWaits_eq _).trans hleft⟩, hchosen⟩

end Calm

/-- An admissible stimulus that starts nothing is a move. -/
theorem runStimulus_of_startsNothing {b : Boundary} {ctx : Ctx} {x : Stimulus} {s : State}
    (hx : x.startsNothing s.params.hostPreemption = true) (hadm : admissible s ctx x = true) (l : List Arrival) :
    runStimulus b ctx x { s with inputs := l } = agentMove x { s with inputs := l } := by
  cases x with
  | port p =>
    cases p with
    | command =>
      simp only [Stimulus.startsNothing, Bool.not_eq_true'] at hx
      simp only [admissible, hostMayAct, hx, Bool.and_false] at hadm
      cases hadm
    | event => cases hx
  | take | shift | clockIn | setBusy | dmaTx | dmaRx | hwReset | hostStore | hostConfig => rfl

/-- A boundary that leaves the board alone. -/
def Quiet (b : Boundary) : Prop := ∀ B, KeepsAt (Calm B) b

theorem deliver_quiet (n : Nat) : Quiet (deliver n) := by
  intro B
  induction n with
  | zero => intro ctx s t h hs; cases h; exact hs
  | succ n ih =>
    intro ctx s t h hs
    obtain ⟨hrest, hchosen⟩ := hs.pick (admissible s ctx)
    simp only [deliver] at h
    split at h
    · rename_i hp; cases h; rw [hp] at hrest; exact hrest
    · rename_i x rest hp
      rw [hp] at hrest hchosen
      rw [runStimulus_of_startsNothing (hchosen x rfl) (pick_admissible hp)] at h
      split at h
      · cases h
      · rename_i hm; exact ih _ _ _ h (hrest.move hm)

namespace Calm

variable {b : Board} {s t : State} (hs : Calm b s)
include hs

/-! Ports and operations -/

theorem agentMoves {n : Nat} (h : agentMoves n s = .ok t) : Calm b t := by
  induction n generalizing s with
  | zero => cases h; exact hs
  | succ n ih =>
    obtain ⟨hrest, -⟩ := hs.pick Stimulus.isAgent
    simp only [Machine.agentMoves] at h
    split at h
    · rename_i hp; cases h; rw [hp] at hrest; exact hrest
    · rename_i hp
      rw [hp] at hrest
      split at h
      · cases h
      · rename_i hm; exact ih (hrest.move hm) h

theorem regWrite {u : Nat} {w : RegWrite} (h : regWrite u w s = .ok t) : Calm b t := by
  obtain ⟨m, hm, rfl⟩ := regWrite_cases h
  exact (hs.agentMoves hm).keep rfl rfl

theorem readFifoStat {u : Nat} {r : Nat × Nat} (h : readFifoStat u s = .ok (r, t)) : Calm b t := by
  obtain ⟨m, hm, -, -, rfl⟩ := readFifoStat_cases (tc := r.1) (rc := r.2) h
  exact (hs.agentMoves hm).emit _

theorem readStat {u : Nat} {r : StatWord} (h : readStat u s = .ok (r, t)) : Calm b t := by
  obtain ⟨m, hm, -, -, -, rfl⟩ := readStat_cases h
  exact (hs.agentMoves hm).emit _

theorem readRxData {u : Nat} {v : Word} (h : readRxData u s = .ok (v, t)) : Calm b t := by
  obtain ⟨m, hm, -, rfl⟩ := readRxData_cases h
  exact ((hs.agentMoves hm).keep (popRx_sameBlock m u).board (popRx_inputs m u)).emit _

theorem rxStoreFrame {c i : Nat} {w : Width} {v : Word} (h : rxStoreFrame s c w i v = .ok t) : Calm b t := by
  obtain rfl | ⟨_, _, _, _, _, _, rfl⟩ := rxStoreFrame_cases h
  · exact hs
  · exact hs.keep rfl rfl

theorem notify {on : Bool} {k : NotifKind} {i : Nat} : Calm b (notify on k i s) := by
  unfold Machine.notify; split
  · exact hs.emit _
  · exact hs

theorem irqOn {u : Nat} : Calm b (irqOn u s) := (hs.setDev u (by rfl)).emit _

theorem irqOff {u : Nat} : Calm b (irqOff u s) := by
  unfold Machine.irqOff; split
  · exact (hs.setDev u (by rfl)).emit _
  · exact hs

theorem dmaCfg {ch : Nat} {d : Tcd} : Calm b (dmaCfg ch d s) := hs.keep rfl rfl
theorem dmaStart {ch : Nat} : Calm b (dmaStart ch s) := hs.keep rfl rfl
theorem dmaStop {ch : Nat} : Calm b (dmaStop ch s) := hs.keep rfl rfl
theorem dmaAck {ch : Nat} : Calm b (dmaAck ch s) := hs.keep rfl rfl
theorem reload {ch n : Nat} : Calm b (reload ch n s) := hs.keep rfl rfl

omit hs in
theorem repeatN {f : State → Res State} (hf : ∀ x y, f x = .ok y → Calm b x → Calm b y) {n : Nat}
    (h : repeatN f n s = .ok t) (hs : Calm b s) : Calm b t := by
  induction n generalizing s with
  | zero => cases h; exact hs
  | succ n ih =>
    simp only [Machine.repeatN] at h
    split at h
    · cases h
    · rename_i hm; exact ih h (hf _ _ hm hs)

/-! The FIFO engine -/

theorem writeCmd {u : Nat} {c : CmdWord} (h : writeCmd u c s = .ok t) : Calm b t := by
  obtain ⟨m, hm, h⟩ := res_bind_eq_ok.1 h
  cases h; exact (hs.regWrite hm).setDev u (by rfl)

theorem programChannel {u : Nat} {first : Bool} {x y : Nat} {f : Bool → CmdWord} {cs : Bool}
    (h : programChannel u first x y f cs s = .ok t) : Calm b t := by
  unfold Machine.programChannel at h
  split at h
  · obtain ⟨m, hm, h⟩ := res_bind_eq_ok.1 h
    obtain ⟨m2, hm2, h⟩ := res_bind_eq_ok.1 h
    cases h; exact ((hs.regWrite hm).writeCmd hm2).setDev u (by rfl)
  · simp only at h
    split at h
    · cases h; exact hs
    · exact hs.writeCmd h

theorem loadTxCounters {u c : Nat} : Calm b (loadTxCounters u c s) := hs.setDev u (by rfl)

theorem txChannelInit {u : Nat} {first : Bool} (h : txChannelInit u first s = .ok t) : Calm b t := by
  obtain ⟨j, -, h⟩ := res_bind_eq_ok.1 h
  simp only at h
  split at h
  · cases h
  · exact hs.loadTxCounters.programChannel h

theorem loadRxCounter {u c : Nat} (h : loadRxCounter u c s = .ok t) : Calm b t := by
  unfold Machine.loadRxCounter at h
  split at h <;> cases h
  exact hs.setDev u (by rfl)

theorem rxChannelInit {u : Nat} (h : rxChannelInit u s = .ok t) : Calm b t := by
  obtain ⟨j, -, h⟩ := res_bind_eq_ok.1 h
  exact hs.loadRxCounter h

theorem clearContCS {u : Nat} (h : clearContCS u s = .ok t) : Calm b t := by
  unfold Machine.clearContCS at h
  split at h
  · obtain ⟨m, hm, h⟩ := res_bind_eq_ok.1 h
    cases h; exact (hs.writeCmd hm).setDev u (by rfl)
  · cases h; exact hs

theorem txChannelComplete {u : Nat} (h : txChannelComplete u s = .ok t) : Calm b t := by
  obtain ⟨j, -, h⟩ := res_bind_eq_ok.1 h
  split at h
  · obtain ⟨m, hm, h⟩ := res_bind_eq_ok.1 h
    cases h; exact (hs.clearContCS hm).setDev u (by rfl)
  · obtain ⟨k, -, h⟩ := res_bind_eq_ok.1 h
    exact (hs.setDev u (by rfl)).txChannelInit h

theorem rxChannelComplete {u : Nat} (h : rxChannelComplete u s = .ok t) : Calm b t := by
  obtain ⟨j, -, h⟩ := res_bind_eq_ok.1 h
  split at h
  · cases h; exact hs.setDev u (by rfl)
  · obtain ⟨k, -, h⟩ := res_bind_eq_ok.1 h
    exact (hs.setDev u (by rfl)).rxChannelInit h

theorem sendFrame {u c : Nat} {w : Width} (h : sendFrame u c w s = .ok t) : Calm b t := by
  obtain ⟨left, -, h⟩ := res_bind_eq_ok.1 h
  obtain ⟨sent, -, h⟩ := res_bind_eq_ok.1 h
  obtain ⟨v, -, h⟩ := res_bind_eq_ok.1 h
  obtain ⟨m, hm, h⟩ := res_bind_eq_ok.1 h
  cases h; exact (hs.regWrite hm).setDev u (by rfl)

theorem receiveFrame {u c : Nat} {w : Width} (h : receiveFrame u c w s = .ok t) : Calm b t := by
  obtain ⟨left, -, h⟩ := res_bind_eq_ok.1 h
  obtain ⟨⟨v, m⟩, hm, h⟩ := res_bind_eq_ok.1 h
  obtain ⟨m2, hm2, h⟩ := res_bind_eq_ok.1 h
  cases h; exact ((hs.readRxData hm).rxStoreFrame hm2).setDev u (by rfl)

theorem txWriteFrame {u : Nat} (h : txWriteFrame u s = .ok t) : Calm b t := by
  obtain ⟨j, -, h⟩ := res_bind_eq_ok.1 h
  obtain ⟨m, hm, h⟩ := res_bind_eq_ok.1 h
  split at h
  · exact (hs.sendFrame hm).txChannelComplete h
  · cases h; exact hs.sendFrame hm

theorem rxReadFrame {u : Nat} (h : rxReadFrame u s = .ok t) : Calm b t := by
  obtain ⟨j, -, h⟩ := res_bind_eq_ok.1 h
  obtain ⟨m, hm, h⟩ := res_bind_eq_ok.1 h
  split at h
  · exact (hs.receiveFrame hm).rxChannelComplete h
  · cases h; exact hs.receiveFrame hm

theorem fifoJobStart {u : Nat} (h : fifoJobStart u s = .ok t) : Calm b t := by
  obtain ⟨m, hm, h⟩ := res_bind_eq_ok.1 h
  obtain ⟨m2, hm2, h⟩ := res_bind_eq_ok.1 h
  obtain ⟨m3, hm3, h⟩ := res_bind_eq_ok.1 h
  have h3 := repeatN (fun _ _ hf hx => hx.txWriteFrame hf) hm3 ((hs.txChannelInit hm).rxChannelInit hm2)
  split at h <;> cases h
  · exact h3.irqOn
  · exact h3

/-! The DMA engine -/

theorem txDmaChannelInit {u : Nat} {first : Bool} (h : txDmaChannelInit u first s = .ok t) : Calm b t := by
  obtain ⟨j, -, h⟩ := res_bind_eq_ok.1 h
  simp only at h
  split at h
  · cases h
  · obtain ⟨m, hm, h⟩ := res_bind_eq_ok.1 h
    cases h; exact ((hs.setDev u (by rfl)).programChannel hm).dmaCfg.dmaStart

theorem rxDmaChannelInit {u : Nat} (h : rxDmaChannelInit u s = .ok t) : Calm b t := by
  obtain ⟨j, -, h⟩ := res_bind_eq_ok.1 h
  simp only at h
  split at h <;> cases h
  exact (hs.setDev u (by rfl)).dmaCfg.dmaStart

theorem dmaJobStart {u : Nat} (h : dmaJobStart u s = .ok t) : Calm b t := by
  obtain ⟨m, hm, h⟩ := res_bind_eq_ok.1 h
  exact (hs.rxDmaChannelInit hm).txDmaChannelInit h

/-! The dispatch procedures -/

theorem masterDispatch {u rc : Nat} (h : masterDispatch u rc s = .ok t) : Calm b t := by
  unfold Machine.masterDispatch at h
  split at h
  · obtain ⟨m, hm, h⟩ := res_bind_eq_ok.1 h
    split at h
    · exact (hs.rxReadFrame hm).txWriteFrame h
    · cases h; exact hs.rxReadFrame hm
  · cases h; exact hs

theorem slaveDrain {u : Nat} (h : slaveDrain u s = .ok t) : Calm b t := by
  unfold Machine.slaveDrain at h
  split at h
  · exact hs.rxReadFrame h
  · obtain ⟨⟨v, m⟩, hm, h⟩ := res_bind_eq_ok.1 h
    cases h; exact hs.readRxData hm

theorem slaveDispatch {u tc rc : Nat} (h : slaveDispatch u tc rc s = .ok t) : Calm b t := by
  obtain ⟨j, -, h⟩ := res_bind_eq_ok.1 h
  obtain ⟨m, hm, h⟩ := res_bind_eq_ok.1 h
  have h1 := repeatN (fun _ _ hf hx => hx.slaveDrain hf) hm hs
  split at h
  · exact repeatN (fun _ _ hf hx => hx.txWriteFrame hf) h h1
  · cases h; exact h1

theorem fifoDispatch {u tc rc : Nat} (h : fifoDispatch u tc rc s = .ok t) : Calm b t := by
  unfold Machine.fifoDispatch at h
  split at h
  · exact hs.slaveDispatch h
  · exact hs.masterDispatch h

theorem dmaTxDispatch {u : Nat} (h : dmaTxDispatch u s = .ok t) : Calm b t := by
  obtain ⟨j, -, h⟩ := res_bind_eq_ok.1 h
  simp only at h
  have h0 : Calm b (Machine.dmaAck (s.cfg.unitAt u).dmaTxCh s) := hs.dmaAck
  generalize Machine.dmaAck (s.cfg.unitAt u).dmaTxCh s = m0 at h h0
  have h1 : ∀ n, Calm b (m0.setDev u { m0.devAt u with sentFrames := n }) := fun n => h0.setDev u rfl
  split at h
  · cases h; exact ((h1 _).setDev u (by rfl)).reload
  · split at h
    · obtain ⟨k, -, h⟩ := res_bind_eq_ok.1 h
      exact ((h1 _).setDev u (by rfl)).txDmaChannelInit h
    · obtain ⟨m, hm, h⟩ := res_bind_eq_ok.1 h
      cases h; exact ((h1 _).clearContCS hm).setDev u (by rfl)

theorem dmaRxDispatch {u : Nat} (h : dmaRxDispatch u s = .ok t) : Calm b t := by
  obtain ⟨j, -, h⟩ := res_bind_eq_ok.1 h
  simp only at h
  split at h
  · cases h; exact (hs.dmaAck.setDev u (by rfl)).reload
  · split at h
    · obtain ⟨k, -, h⟩ := res_bind_eq_ok.1 h
      exact (hs.dmaAck.setDev u (by rfl)).rxDmaChannelInit h
    · cases h; exact hs.dmaAck.setDev u (by rfl)

/-! The synchronous engines -/

theorem syncPass {u c : Nat} {w : Width} {l : Bool} (h : syncPass u c w l s = .ok t) : Calm b t := by
  obtain ⟨⟨r, m⟩, hm, h⟩ := res_bind_eq_ok.1 h
  obtain ⟨m2, hm2, h⟩ := res_bind_eq_ok.1 h
  have h0 := hs.readFifoStat hm
  have h1 : Calm b m2 := by
    unfold syncSend at hm2
    split at hm2
    · obtain ⟨m3, hm3, hm2⟩ := res_bind_eq_ok.1 hm2
      split at hm2
      · exact (h0.sendFrame hm3).clearContCS hm2
      · cases hm2; exact h0.sendFrame hm3
    · cases hm2; exact h0
  unfold syncReceive at h
  split at h
  · exact h1.receiveFrame h
  · cases h; exact h1

theorem setChanIdx {u k : Nat} (h : setChanIdx u k s = .ok t) : Calm b t := by
  obtain ⟨-, rfl⟩ := setChanIdx_cases h
  exact hs.setDev u (by rfl)

theorem fastChannelInit {e : CacheEntry} {r : CacheChan} {first : Bool} (h : fastChannelInit e r first s = .ok t) : Calm b t := by
  unfold Machine.fastChannelInit at h
  split at h
  · cases h
  · obtain ⟨m, hm, h⟩ := res_bind_eq_ok.1 h
    exact (hs.loadTxCounters.programChannel hm).loadRxCounter h

/-! The stop of a slave -/

theorem waitNotBusy {u n : Nat} (h : waitNotBusy u n s = .ok t) : Calm b t := by
  induction n generalizing s with
  | zero => cases h
  | succ n ih =>
    simp only [Machine.waitNotBusy] at h
    split at h
    · cases h
    · rename_i hr
      split at h
      · exact ih (hs.readStat hr) h
      · cases h; exact hs.readStat hr

end Calm

/-! The procedures of the scheduler, when nothing but moves comes between their segments -/

/-- `Dev` may change without the plan. -/
theorem Sched.setDev {s : State} {π : Plan} (h : Sched s π) (u : Nat) (d : Dev) : Sched (s.setDev u d) π where
  fit := h.fit.same { SameTables.refl s with dev := tset_length _ _ _ }
  lists := ⟨h.lists.queue, fun v hv p hp =>
    (h.lists.level v hv p hp).keep rfl rfl (fun _ _ => rfl) fun j hj => (h.lists.waits v hv p hp j hj).keep rfl rfl rfl⟩
  units := h.units.keep rfl (fun _ => rfl) (fun _ => rfl) (fun _ => rfl) rfl rfl fun _ _ _ hnil => hnil
  locks := h.locks.congr rfl rfl rfl rfl rfl rfl

theorem curOf_setDev {s : State} {u : Nat} (hu : u < s.dev.length) (d : Dev) :
    (s.setDev u d).curOf = Function.update s.curOf u d.curJob := by
  funext v
  by_cases hv : u = v
  · subst hv; rw [State.curOf, devAt_setDev_same _ _ _ hu, Function.update_self]
  · rw [State.curOf, devAt_setDev_ne _ _ _ _ hv, Function.update_of_ne (Ne.symm hv)]; rfl

/-- The plan in which the jobs in flight are those of `Dev`. -/
def State.planIn (s : State) (list : Nat → Nat → List Nat) (free : List Nat) (pend : Option Nat) : Plan :=
  { cur := s.curOf, list := list, free := free, pend := pend }

/-- The state has configuration `c` and follows the plan, and nothing that waits starts a procedure. -/
structure Steady (c : Cfg) (s : State) (π : Plan) : Prop where
  cfg : s.cfg = c
  sched : Sched s π
  waits : s.noProcedureWaits = true

/-- The state follows the plan with the jobs in flight of `Dev`. -/
abbrev Stands (c : Cfg) (s : State) (list : Nat → Nat → List Nat) (free : List Nat) (pend : Option Nat) : Prop :=
  Steady c s (s.planIn list free pend)

/-- Job `j` is about to start on unit `u`, where no job is in flight yet, or was in flight a moment ago and is about to be finished. -/
abbrev Transits (c : Cfg) (s : State) (u j : Nat) (list : Nat → Nat → List Nat) (free : List Nat) : Prop :=
  Steady c s ((s.planIn list free none).start u j free)

/-- Scheduling is in order, as between two instructions. -/
def AtRest (c : Cfg) (s : State) : Prop := ∃ list, Stands c s list [] none

theorem noProcedureWaits_congr {s t : State} (hparams : t.params = s.params) (hinputs : t.inputs = s.inputs) :
    t.noProcedureWaits = s.noProcedureWaits := by rw [noProcedureWaits_eq, noProcedureWaits_eq, hparams, hinputs]

section
variable {c : Cfg} {s t : State} {π : Plan} {list : Nat → Nat → List Nat} {free : List Nat} {pend : Option Nat}

theorem Steady.calm (h : Steady c s π) (ht : Calm s.board t) : Steady c t π :=
  ⟨(board_cfg ht.board).trans h.cfg, h.sched.of_board ht.board, ht.waits⟩

theorem board_planIn (h : t.board = s.board) : t.planIn list free pend = s.planIn list free pend := by
  rw [State.planIn, State.planIn, board_curOf h]

theorem Stands.calm (h : Stands c s list free pend) (ht : Calm s.board t) : Stands c t list free pend := by
  have := Steady.calm h ht
  rwa [← board_planIn ht.board] at this

theorem Transits.calm {u j : Nat} (h : Transits c s u j list free) (ht : Calm s.board t) : Transits c t u j list free := by
  have := Steady.calm h ht
  rwa [← board_planIn ht.board] at this

theorem AtRest.calm (h : AtRest c s) (ht : Calm s.board t) : AtRest c t := by
  obtain ⟨list, h⟩ := h
  exact ⟨list, h.calm ht⟩

theorem AtRest.waits (h : AtRest c s) : s.noProcedureWaits = true := by
  obtain ⟨_, h⟩ := h
  exact h.waits

theorem Steady.refl (h : Steady c s π) : Calm s.board s := .refl h.waits

theorem AtRest.refl (h : AtRest c s) : Calm s.board s := .refl h.waits

theorem AtRest.schedOk (h : AtRest c s) : s.schedOk = true := by
  obtain ⟨_, h⟩ := h
  exact schedOk_of_sched h.sched

end

/-- What a segment that writes only queues and results leaves alone. -/
structure SameSetting (s t : State) : Prop where
  params : t.params = s.params
  cfg : t.cfg = s.cfg
  dev : t.dev = s.dev
  inputs : t.inputs = s.inputs

namespace SameSetting

variable {c : Cfg} {s t : State} {list : Nat → Nat → List Nat} {free : List Nat} (h : SameSetting s t)
include h

theorem waits (hs : s.noProcedureWaits = true) : t.noProcedureWaits = true :=
  (noProcedureWaits_congr h.params h.inputs).trans hs

theorem planIn (pend : Option Nat) : t.planIn list free pend = s.planIn list free pend := by
  have hcur : t.curOf = s.curOf := by
    funext u; rw [State.curOf, State.curOf, State.devAt, State.devAt, h.dev]
  rw [State.planIn, State.planIn, hcur]

theorem stands {pend : Option Nat} (hcfg : s.cfg = c) (hs : s.noProcedureWaits = true) (ht : Sched t (s.planIn list free pend)) :
    Stands c t list free pend := ⟨h.cfg.trans hcfg, h.planIn pend ▸ ht, h.waits hs⟩

theorem transits {u j : Nat} (hcfg : s.cfg = c) (hs : s.noProcedureWaits = true) (ht : Sched t ((s.planIn list free none).start u j free)) :
    Transits c t u j list free := ⟨h.cfg.trans hcfg, h.planIn none ▸ ht, h.waits hs⟩

end SameSetting

/-! The start of a job (41_engine_fifo.md R211) -/

/-- The job about to start is in flight after its start. -/
theorem jobStart_stands {c : Cfg} {s t : State} {j : Nat} {list : Nat → Nat → List Nat} {free : List Nat} (hu : s.unitOf j < c.numUnits)
    (hs : Transits c s (s.unitOf j) j list free) (h : jobStart j s = .ok t) : Stands c t list free none := by
  unfold jobStart at h
  split at h
  · cases h
  · obtain ⟨m, hm, h⟩ := res_bind_eq_ok.1 h
    have hcalm : Calm s.board m := hs.refl.notify.regWrite hm
    have hm' : Transits c m (s.unitOf j) j list free := hs.calm hcalm
    have hult : s.unitOf j < m.dev.length := hm'.sched.fit.dev_lt (by rw [hm'.cfg]; exact hu)
    have henter : Stands c (enterJob (s.unitOf j) j m) list free none := by
      have hcur : (enterJob (s.unitOf j) j m).curOf = Function.update m.curOf (s.unitOf j) (some j) := curOf_setDev hult _
      refine ⟨hm'.cfg, ?_, hm'.waits⟩
      rw [State.planIn, hcur]
      exact hm'.sched.setDev _ _
    simp only at h
    split at h
    · exact henter.calm (henter.refl.dmaJobStart h)
    · exact henter.calm (henter.refl.fifoJobStart h)

section
variable {c : Cfg} {b : Boundary} (hb : Quiet b) {ctx : Ctx} {s t : State} {list : Nat → Nat → List Nat} {free : List Nat}
include hb

/-- A boundary leaves the board as it is. -/
theorem Quiet.calm (hs : s.noProcedureWaits = true) (h : b ctx s = .ok t) : Calm s.board t := hb _ _ _ _ h (.refl hs)

theorem jobTransfer_stands {j : Nat} (hu : s.unitOf j < c.numUnits) (hs : Transits c s (s.unitOf j) j list free)
    (h : jobTransfer b ctx j s = .ok t) : Stands c t list free none := by
  obtain ⟨m, hm, h⟩ := res_bind_eq_ok.1 h
  have hcalm := hb.calm hs.waits hm
  have hcfg := board_cfg hcalm.board
  refine jobStart_stands (by rw [unitOf_congr hcfg]; exact hu) ?_ h
  rw [unitOf_congr hcfg]; exact hs.calm hcalm

end

/-! The segments `CS3` and `CS4` (45_scheduler.md R340, R342) -/

theorem claimOrEnqueue_sameSetting (j : Nat) (s : State) : SameSetting s (claimOrEnqueue j s).2 := by
  unfold claimOrEnqueue
  split
  · exact ⟨rfl, rfl, rfl, rfl⟩
  · obtain ⟨us, js, hframe⟩ := enqueue_frame j s
    simp only [hframe]
    exact ⟨rfl, rfl, rfl, rfl⟩

theorem popNext_sameSetting {u : Nat} {n : Option Nat} {s t : State} (h : popNext u s = .ok (n, t)) : SameSetting s t := by
  obtain ⟨us, js, rfl⟩ := popNext_frame h
  exact ⟨rfl, rfl, rfl, rfl⟩

section
variable {c : Cfg} {b : Boundary} (hb : Quiet b) {ctx : Ctx} {s t : State} {list : Nat → Nat → List Nat} {free : List Nat}
include hb

/-- The job to be placed starts, or waits in its list. -/
theorem scheduleJob_stands {n : Nat} (hs : Stands c s list free (some n)) (h : scheduleJob b ctx n s = .ok t) :
    ∃ list', Stands c t list' free none := by
  obtain ⟨m, hm, h⟩ := res_bind_eq_ok.1 h
  have hm' := hs.calm (hb.calm hs.waits hm)
  have hsetting := claimOrEnqueue_sameSetting n m
  obtain ⟨m2, heq, -, hstart⟩ | ⟨m2, list', heq, hwait⟩ := hm'.sched.claimOrEnqueue (n := n) rfl
  · rw [heq] at h hsetting
    obtain ⟨hlt, -⟩ := hm'.sched.locks.pend n rfl
    have hunit : m2.unitOf n = m.unitOf n := unitOf_congr hsetting.cfg n
    refine ⟨list, jobTransfer_stands hb ?_ ?_ h⟩
    · rw [hunit, ← hm'.cfg]; exact hm'.sched.fit.unitOf_lt hlt
    · rw [hunit]; exact hsetting.transits hm'.cfg hm'.waits hstart
  · rw [heq] at h hsetting
    cases h
    exact ⟨list', hsetting.stands hm'.cfg hm'.waits hwait⟩

/-- A unit that is handed over becomes idle, or the first of its waiting jobs starts. -/
theorem scheduleNextJob_atRest {u : Nat} (hs : Stands c s list [u] none) (h : scheduleNextJob b ctx u s = .ok t) : AtRest c t := by
  obtain ⟨m, hm, h⟩ := res_bind_eq_ok.1 h
  obtain ⟨⟨n, m2⟩, hm2, h⟩ := res_bind_eq_ok.1 h
  have hm' := hs.calm (hb.calm hs.waits hm)
  obtain ⟨hu, -⟩ := hm'.sched.units.free u List.mem_cons_self
  have hsetting := popNext_sameSetting hm2
  obtain ⟨rfl, hidle⟩ | ⟨j, list', rfl, hunit, hnext⟩ := hm'.sched.popNext rfl rfl hm2
  · cases h
    exact ⟨list, hsetting.stands hm'.cfg hm'.waits hidle⟩
  · refine ⟨list', jobTransfer_stands hb ?_ ?_ h⟩
    · rw [hunit, ← hm'.cfg]; exact hu
    · rw [hunit]; exact hsetting.transits hm'.cfg hm'.waits hnext

/-- The next job of a sequence takes over the unit of the one before, or goes its own way (R346). -/
theorem startOrScheduleNext_atRest {q u : Nat} (hs : Stands c s list [u] (some (s.cursorJob q)))
    (h : startOrScheduleNext b ctx q u s = .ok t) : AtRest c t := by
  simp only [startOrScheduleNext] at h
  split at h
  · rename_i hunit
    obtain ⟨hunit, -⟩ := hunit
    obtain ⟨m, hm, h⟩ := res_bind_eq_ok.1 h
    have hcalm := hb.calm hs.waits hm
    have hm' := hs.calm hcalm
    have hunit' : m.unitOf (s.cursorJob q) = u := (unitOf_congr (board_cfg hcalm.board) _).trans hunit
    obtain ⟨hu, -⟩ := hm'.sched.units.free u List.mem_cons_self
    refine ⟨list, jobTransfer_stands hb (s := m.setJobResult (s.cursorJob q) .pending) ?_ ⟨hm'.cfg, ?_, hm'.waits⟩ h⟩
    · show m.unitOf (s.cursorJob q) < _
      rw [hunit', ← hm'.cfg]; exact hu
    · show Sched _ (Plan.start _ (m.unitOf (s.cursorJob q)) _ _)
      rw [hunit']; exact hm'.sched.start rfl hunit' rfl List.not_mem_nil
  · obtain ⟨m, hm, h⟩ := res_bind_eq_ok.1 h
    obtain ⟨list', hm'⟩ := scheduleJob_stands hb hs hm
    exact scheduleNextJob_atRest hb hm' h

end

/-! The end of a job (45_scheduler.md R345, 41_engine_fifo.md R236) -/

/-- Once the job that was in flight has left its unit, the jobs in flight are those of `Dev`. -/
theorem start_leave {s : State} {u : Nat} (hnone : s.curOf u = none) (list : Nat → Nat → List Nat) (j : Nat) (pend : Option Nat) :
    ((s.planIn list [] none).start u j []).leave u pend = s.planIn list [u] pend := by
  have hcur : Function.update (Function.update s.curOf u (some j)) u none = s.curOf := by
    rw [Function.update_idem, ← hnone, Function.update_eq_self]
  simp only [Plan.leave, Plan.start, State.planIn, hcur]

theorem finishJob_sameSetting {j q : Nat} {s t : State} (h : finishJob j q s = .ok t) : SameSetting s t := by
  obtain ⟨e, -, rfl⟩ := finishJob_cases h
  exact ⟨rfl, rfl, rfl, rfl⟩

theorem unlockRemaining_sameSetting (q : Nat) (l : List Nat) (s : State) : SameSetting s (unlockRemaining q l s) := by
  induction l generalizing s with
  | nil => exact ⟨rfl, rfl, rfl, rfl⟩
  | cons j rest ih =>
    simp only [unlockRemaining]
    split
    · obtain ⟨hparams, hcfg, hdev, hinputs⟩ := ih (s.setJobOwner j none)
      exact ⟨hparams, hcfg, hdev, hinputs⟩
    · exact ih s

theorem unlockRemaining_seqAt (q : Nat) (l : List Nat) (s : State) (r : Nat) : (unlockRemaining q l s).seqAt r = s.seqAt r := by
  induction l generalizing s with
  | nil => rfl
  | cons j rest ih =>
    simp only [unlockRemaining]
    split
    · exact ih (s.setJobOwner j none)
    · exact ih s

/-- A cancelled sequence that has finished a job unlocks the rest. -/
theorem Finishes.cleanup {s t m : State} {j q : Nat} (h : Finishes s t j q) (hfit : Fit s) (hq : q < s.cfg.numSeqs)
    (hmem : ∀ i < s.cfg.numJobs, (s.jobAt i).owner = some q → i ∈ (s.cfg.seqAt q).jobs) (hm : m.board = t.board) :
    Finishes s (Machine.unlockRemaining q (m.cfg.seqAt q).jobs m) j q ∧
    ∀ i < s.cfg.numJobs, ((Machine.unlockRemaining q (m.cfg.seqAt q).jobs m).jobAt i).owner ≠ some q := by
  have hfm := h.of_board hm
  have hlt : ∀ i ∈ (m.cfg.seqAt q).jobs, i < s.cfg.numJobs := fun i hi => hfit.seqJob_lt hq (by rwa [hfm.cfg] at hi)
  refine ⟨hfm.unlockRemaining hlt, fun i hi ho => ?_⟩
  obtain ⟨-, -, -, -, -, howner⟩ := unlockRemaining_spec (q := q) (l := (m.cfg.seqAt q).jobs) (s := m)
    fun i hi => by rw [hfm.fit.job, hfm.cfg]; exact hlt i hi
  rw [howner] at ho
  split at ho
  · cases ho
  · rename_i hnot
    exact hnot ⟨by rw [hfm.cfg]; exact hmem i hi (hfm.owner i q ho).2, ho⟩

section
variable {c : Cfg} {b : Boundary} (hb : Quiet b) {ctx : Ctx} {s t : State}
include hb

/-- The job that has left its unit is finished, and its sequence goes on (R345). -/
theorem jobTransferFinished_atRest {u j : Nat} {list : Nat → Nat → List Nat} (hu : u < c.numUnits)
    (hs : Transits c s u j list []) (hnone : s.curOf u = none) (h : jobTransferFinished b ctx j s = .ok t) : AtRest c t := by
  obtain ⟨m, hm, h⟩ := res_bind_eq_ok.1 h
  have hcalm := hb.calm hs.waits hm
  have hm' := hs.calm hcalm
  rw [← hm'.cfg] at hu
  rw [← board_curOf hcalm.board] at hnone
  have hcur : ((m.planIn list [] none).start u j []).cur u = some j := Function.update_self ..
  obtain ⟨-, hj, hunit, -, -⟩ := hm'.sched.units.busy u hu j hcur
  split at h
  · cases h
  · rename_i q ho
    obtain ⟨m1, hm1, h⟩ := res_bind_eq_ok.1 h
    obtain ⟨m2, hm2, h⟩ := res_bind_eq_ok.1 h
    obtain ⟨hq, -, hres⟩ := hm'.sched.locks.lock j hj q ho
    have hf := finishJob_finishes hm'.sched.fit hj ho hm1
    have hsetting := finishJob_sameSetting hm1
    have hcalm1 := (hb.calm (hsetting.waits hm'.waits) hm2).notify (on := (m2.cfg.jobAt j).endNotif) (k := .jobEnd) (i := j)
    simp only [hunit] at h
    obtain ⟨hleft, ⟨hcancel, heq⟩ | ⟨hcancel, hzero, heq⟩ | ⟨hcancel, hpos, -, heq⟩⟩ :=
      finishOne_cases (finishJob_seqAt hm'.sched.fit hq hm1)
    · rw [if_pos (decide_eq_true hcancel)] at h
      obtain ⟨m3, hm3, h⟩ := res_bind_eq_ok.1 h
      obtain ⟨m4, hm4, hm3⟩ := res_bind_eq_ok.1 hm3
      cases hm3
      have hcalm4 := hb _ _ _ _ hm4 hcalm1
      obtain ⟨hf5, hno⟩ := hf.cleanup hm'.sched.fit hq (fun i hi hio => (hm'.sched.locks.lock i hi q hio).2.1) hcalm4.board
      have hsched := hm'.sched.finish_cancelled hu hcur ho rfl hf5 (by
        rw [unlockRemaining_seqAt, board_seqAt hcalm4.board, heq]; exact hcancel) hno
      rw [start_leave hnone, ← hsetting.planIn, ← board_planIn hcalm4.board] at hsched
      have hcfg4 : m4.cfg = c := (board_cfg hcalm4.board).trans (hsetting.cfg.trans hm'.cfg)
      have h5 := (unlockRemaining_sameSetting q (m4.cfg.seqAt q).jobs m4).stands hcfg4 hcalm4.waits hsched
      exact scheduleNextJob_atRest hb (h5.calm h5.refl.notify) h
    · have hsched := hm'.sched.finish_last hu hcur ho rfl hf (by rw [heq]) (by omega)
      rw [start_leave hnone] at hsched
      rw [if_neg (by simpa using hcancel), if_pos (by rw [hleft, hzero]; rfl)] at h
      exact scheduleNextJob_atRest hb ((hsetting.stands hm'.cfg hm'.waits hsched).calm hcalm1.notify) h
    · have hother : ∀ i, j ≠ i → (m1.jobAt i).owner = (m.jobAt i).owner := fun i hi => by
        obtain ⟨e, -, rfl⟩ := finishJob_cases hm1
        rw [setSeq_jobAt, jobAt_setJob_ne _ _ _ _ hi]
      have hsched := hm'.sched.finish_next hu hcur ho rfl hf hother (by rw [heq]; exact hres.resolve_right hcancel) (by rw [heq])
        hleft hpos
      rw [start_leave hnone] at hsched
      rw [if_neg (by simpa using hcancel), if_neg (by simpa [hleft] using hpos)] at h
      refine startOrScheduleNext_atRest hb (q := q) (list := list) ?_ h
      rw [cursorJob_congr (board_cfg hcalm1.board) (by rw [board_seqAt hcalm1.board])]
      exact (hsetting.stands hm'.cfg hm'.waits hsched).calm hcalm1

end

/-- The job in flight leaves `Dev[u]`; what is left is to finish it. -/
theorem Stands.leaveUnit {c : Cfg} {s : State} {u j : Nat} {list : Nat → Nat → List Nat} {d : Dev} (hs : Stands c s list [] none)
    (hu : u < c.numUnits) (hcur : s.curOf u = some j) (hd : d.curJob = none) :
    Transits c (s.setDev u d) u j list [] ∧ (s.setDev u d).curOf u = none := by
  have hcur' : (s.setDev u d).curOf = Function.update s.curOf u none := by
    rw [curOf_setDev (hs.sched.fit.dev_lt (by rw [hs.cfg]; exact hu)), hd]
  refine ⟨⟨hs.cfg, ?_, hs.waits⟩, by rw [hcur']; exact Function.update_self ..⟩
  have hback : Function.update (Function.update s.curOf u none) u (some j) = s.curOf := by
    rw [Function.update_idem, ← hcur, Function.update_eq_self]
  simp only [Plan.start, State.planIn, hcur', hback]
  exact hs.sched.setDev u d

section
variable {c : Cfg} {b : Boundary} (hb : Quiet b) {ctx : Ctx} {s t : State}
include hb

theorem jobFinishGuarded_atRest {u : Nat} (hu : u < c.numUnits) (hs : AtRest c s) (h : jobFinishGuarded b ctx u s = .ok t) :
    AtRest c t := by
  obtain ⟨m, hm, h⟩ := res_bind_eq_ok.1 h
  have hcalm := hb.calm hs.waits hm
  have hm' := hs.calm hcalm
  unfold finishGuard at h
  cases hcur : (m.devAt u).curJob with
  | none => rw [hcur] at h; cases h; exact hm'
  | some j =>
    rw [hcur] at h
    by_cases hguard : (m.jobAt j).result ≠ .ok ∧ (m.jobAt j).owner ≠ none
    · simp only [if_pos hguard] at h
      have hoff := hm'.refl.irqOff (u := u)
      obtain ⟨list, hoff'⟩ := hm'.calm hoff
      have hcur' : (irqOff u m).curOf u = some j := by rw [board_curOf hoff.board]; exact hcur
      obtain ⟨htransit, hnone⟩ := hoff'.leaveUnit (d := { (irqOff u m).devAt u with curJob := none }) hu hcur' rfl
      exact jobTransferFinished_atRest hb hu htransit hnone h
    · simp only [if_neg hguard] at h
      cases h; exact hm'

/-! The dispatch procedures -/

theorem finishIfDone_atRest {u : Nat} (hu : u < c.numUnits) (hs : AtRest c s) (h : finishIfDone b ctx u s = .ok t) : AtRest c t := by
  unfold finishIfDone at h
  split at h
  · exact jobFinishGuarded_atRest hb hu hs h
  · cases h; exact hs

/-- A dispatch that leaves the board alone, and the end of the job if it is done. -/
theorem finishIfDone_of_calm {u : Nat} {m : State} (hu : u < c.numUnits) (hs : AtRest c s) (hm : Calm s.board m)
    (h : finishIfDone b ctx u m = .ok t) : AtRest c t :=
  finishIfDone_atRest hb hu (hs.calm hm) h

theorem isrFifoRx_atRest {u : Nat} (hu : u < c.numUnits) (hs : AtRest c s) (h : isrFifoRx b ctx u s = .ok t) : AtRest c t := by
  obtain ⟨⟨r, m⟩, hm, h⟩ := res_bind_eq_ok.1 h
  obtain ⟨m2, hm2, h⟩ := res_bind_eq_ok.1 h
  exact finishIfDone_of_calm hb hu hs ((hs.refl.readFifoStat hm).fifoDispatch hm2) h

theorem isrDmaTx_atRest {u : Nat} (hu : u < c.numUnits) (hs : AtRest c s) (h : isrDmaTx b ctx u s = .ok t) : AtRest c t := by
  obtain ⟨m, hm, h⟩ := res_bind_eq_ok.1 h
  exact finishIfDone_of_calm hb hu hs (hs.refl.dmaTxDispatch hm) h

theorem isrDmaRx_atRest {u : Nat} (hu : u < c.numUnits) (hs : AtRest c s) (h : isrDmaRx b ctx u s = .ok t) : AtRest c t := by
  obtain ⟨m, hm, h⟩ := res_bind_eq_ok.1 h
  exact finishIfDone_of_calm hb hu hs (hs.refl.dmaRxDispatch hm) h

end

/-! The asynchronous commands and the events, when nothing but moves comes between their segments -/

section
variable {c : Cfg} {b : Boundary} (hb : Quiet b) {ctx : Ctx} {s t : State}
include hb

theorem irqPollFifo_atRest {u : Nat} (hu : u < c.numUnits) (hs : AtRest c s) (h : irqPollFifo b ctx u s = .ok t) : AtRest c t := by
  obtain ⟨⟨st, m⟩, hm, h⟩ := res_bind_eq_ok.1 h
  have hm' := hs.calm (hs.refl.readStat hm)
  simp only at h
  split at h
  · exact isrFifoRx_atRest hb hu hm' h
  · cases h; exact hm'

theorem irqPollDmaRx_atRest {u : Nat} (hu : u < c.numUnits) (hs : AtRest c s) (h : irqPollDmaRx b ctx u s = .ok t) : AtRest c t := by
  have hpoll : AtRest c (dmaPoll (s.cfg.unitAt u).dmaRxCh s).2 := hs.calm (hs.refl.emit _)
  unfold irqPollDmaRx at h
  split at h
  · split at h
    · rename_i heq; rw [heq] at hpoll; exact isrDmaRx_atRest hb hu hpoll h
    · rename_i heq; rw [heq] at hpoll; cases h; exact hpoll
  · cases h; exact hs

theorem irqPollDma_atRest {u : Nat} (hu : u < c.numUnits) (hs : AtRest c s) (h : irqPollDma b ctx u s = .ok t) : AtRest c t := by
  have hpoll : AtRest c (dmaPoll (s.cfg.unitAt u).dmaTxCh s).2 := hs.calm (hs.refl.emit _)
  unfold irqPollDma at h
  split at h
  · rename_i heq
    rw [heq] at hpoll
    obtain ⟨m, hm, h⟩ := res_bind_eq_ok.1 h
    obtain ⟨m2, hm2, h⟩ := res_bind_eq_ok.1 h
    have hm' := isrDmaTx_atRest hb hu hpoll hm
    exact irqPollDmaRx_atRest hb hu (hm'.calm (hb.calm hm'.waits hm2)) h
  · rename_i heq
    rw [heq] at hpoll
    exact irqPollDmaRx_atRest hb hu hpoll h

theorem irqPoll_atRest {u : Nat} (hu : u < c.numUnits) (hs : AtRest c s) (h : irqPoll b ctx u s = .ok t) : AtRest c t := by
  unfold irqPoll at h
  split at h
  · exact irqPollDma_atRest hb hu hs h
  · exact irqPollFifo_atRest hb hu hs h

theorem pollUnits_atRest {l : List Nat} (hl : ∀ u ∈ l, u < c.numUnits) (hs : AtRest c s) (h : pollUnits b ctx l s = .ok t) :
    AtRest c t := by
  induction l generalizing s with
  | nil => cases h; exact hs
  | cons u rest ih =>
    obtain ⟨m, hm, h⟩ := res_bind_eq_ok.1 h
    obtain ⟨m2, hm2, h⟩ := res_bind_eq_ok.1 h
    have hm' := hs.calm (hb.calm hs.waits hm)
    refine ih (fun v hv => hl v (List.mem_cons_of_mem u hv)) ?_ h
    unfold pollUnit at hm2
    split at hm2
    · exact irqPoll_atRest hb (hl u List.mem_cons_self) hm' hm2
    · cases hm2; exact hm'

/-! `CANCEL` (46_cancel.md R370, R378) -/

omit hb in
theorem slaveStop_calm {u : Nat} {B : Board} (hs : Calm B s) (h : slaveStop u s = .ok t) :
    ∃ m, Calm B m ∧ t = leaveSlaveJob u m := by
  obtain ⟨m, hm, h⟩ := res_bind_eq_ok.1 h
  obtain ⟨m2, hm2, h⟩ := res_bind_eq_ok.1 h
  cases h
  refine ⟨m2, Calm.regWrite (Calm.waitNotBusy ?_ hm) hm2, rfl⟩
  split
  · exact hs.irqOff.dmaStop.dmaStop
  · exact hs.irqOff

theorem slaveCancel_atRest {u j : Nat} (hu : u < c.numUnits) (hs : AtRest c s) (h : slaveCancel b ctx u j s = .ok t) : AtRest c t := by
  obtain ⟨m, hm, h⟩ := res_bind_eq_ok.1 h
  have hm' := hs.calm (hb.calm hs.waits hm)
  split at h
  · rename_i hcur
    obtain ⟨m2, hm2, h⟩ := res_bind_eq_ok.1 h
    obtain ⟨m3, hcalm, rfl⟩ := slaveStop_calm hm'.refl hm2
    obtain ⟨list, hm3⟩ := hm'.calm hcalm
    obtain ⟨htransit, hnone⟩ := hm3.leaveUnit
      (d := { m3.devAt u with curJob := none, contCSActive := false, txDone := true, rxDone := true }) hu
      (by rw [board_curOf hcalm.board]; exact hcur) rfl
    exact jobTransferFinished_atRest hb hu htransit hnone h
  · cases h; exact hm'

end

/-! Commands that leave the board alone -/

namespace Calm

variable {b : Board} {s t : State} (hs : Calm b s)
include hs

theorem respond (v : Word) : Calm b (respond v s) := hs.emit _

theorem raise (op : Byte) (e : ErrName) : Calm b (raise op e s) := by
  unfold Machine.raise; split
  · exact hs.emit _
  · exact hs

theorem fail (op : Byte) (e : ErrName) (v : Word) : Calm b (fail op e v s) := (hs.raise op e).respond v

theorem reportDemTimeout : Calm b (reportDemTimeout s) := by
  unfold Machine.reportDemTimeout; split
  · exact hs.emit _
  · exact hs

theorem reservedCommand (op : Byte) : Calm b (reservedCommand op s) := hs.fail _ _ _

end Calm

section
variable {c : Cfg} {s t : State} (hs : AtRest c s)
include hs

theorem AtRest.respond (v : Word) : AtRest c (respond v s) := hs.calm (hs.refl.respond v)

theorem AtRest.fail (op : Byte) (e : ErrName) (v : Word) : AtRest c (fail op e v s) := hs.calm (hs.refl.fail op e v)

theorem AtRest.notify {on : Bool} {k : NotifKind} {i : Nat} : AtRest c (notify on k i s) := hs.calm hs.refl.notify

theorem AtRest.fit : Fit s := by
  obtain ⟨_, hs⟩ := hs
  exact hs.sched.fit

theorem AtRest.cfg : s.cfg = c := by
  obtain ⟨_, hs⟩ := hs
  exact hs.cfg

end

section
variable {c : Cfg} {b : Boundary} (hb : Quiet b) {ctx : Ctx} {s t : State}
include hb

theorem cmdMainFunctionHandling_atRest (hs : AtRest c s) (h : cmdMainFunctionHandling b ctx s = .ok t) : AtRest c t := by
  unfold cmdMainFunctionHandling at h
  split at h
  · cases h; exact hs.fail _ _ _
  · split at h
    · cases h; exact hs.respond _
    · obtain ⟨m, hm, h⟩ := res_bind_eq_ok.1 h
      cases h
      refine (pollUnits_atRest hb (fun u hu => ?_) hs hm).respond _
      rw [hs.cfg] at hu
      exact List.mem_range.1 hu

theorem cmdCancel_atRest {q : Nat} (hs : AtRest c s) (h : cmdCancel b ctx q s = .ok t) : AtRest c t := by
  unfold cmdCancel at h
  split at h
  · cases h; exact hs.fail _ _ _
  · split at h
    · cases h; exact hs.fail _ _ _
    · split at h
      · cases h; exact hs.fail _ _ _
      · rename_i hrange
        have hq : q < s.cfg.numSeqs := by simpa [State.seqInRange] using hrange
        split at h
        · cases h; exact hs.respond _
        · rename_i hgo
          rw [not_or, not_not] at hgo
          obtain ⟨-, hres⟩ := hgo
          obtain ⟨list, hstands⟩ := hs
          have hcancel : AtRest c (s.setSeqResult q .cancelled) :=
            ⟨list, hstands.cfg, hstands.sched.cancel hq hres, hstands.waits⟩
          split at h
          · obtain ⟨m, hm, h⟩ := res_bind_eq_ok.1 h
            cases h
            obtain ⟨-, hway⟩ := hstands.sched.locks.pending q hq hres
            have hu : s.unitOf (s.cursorJob q) < c.numUnits := by
              rw [← hstands.cfg]
              exact hstands.sched.fit.unitOf_lt (hstands.sched.fit.seqJob_lt hq (cursorJob_mem hway.cursor))
            exact (slaveCancel_atRest hb hu hcancel hm).respond _
          · cases h; exact hcancel.respond _

/-! `ASYNC_TRANSMIT` (45_scheduler.md R330) -/

omit hb in
theorem LockedBy.sameSetting {s m : State} {q : Nat} (h : LockedBy s m q (s.cfg.seqAt q).jobs) : SameSetting s m := by
  obtain ⟨⟨js, rfl⟩, -⟩ := h
  exact ⟨rfl, rfl, rfl, rfl⟩

omit hb in
theorem queueAll_sameSetting (l : List Nat) (s : State) : SameSetting s (queueAll l s) := by
  induction l generalizing s with
  | nil => exact ⟨rfl, rfl, rfl, rfl⟩
  | cons j rest ih =>
    obtain ⟨hparams, hcfg, hdev, hinputs⟩ := ih (s.setJobResult j .queued)
    exact ⟨hparams, hcfg, hdev, hinputs⟩

omit hb in
theorem acceptSeq_sameSetting (q : Nat) (s : State) : SameSetting s (acceptSeq q s) := by
  obtain ⟨hparams, hcfg, hdev, hinputs⟩ := queueAll_sameSetting (s.cfg.seqAt q).jobs
    (s.setSeq q { result := .pending, remainingJobs := (s.cfg.seqAt q).jobs.length, cursor := 0 })
  exact ⟨hparams, hcfg, hdev, hinputs⟩

/-- Once its jobs are locked, a sequence is accepted and its first job goes its way. -/
theorem scheduleAccepted_atRest {m m' : State} {q : Nat} {list : Nat → Nat → List Nat} (hs : Stands c s list [] none)
    (hq : q < s.cfg.numSeqs) (hasync : s.seqIsSync q = false) (hlocked : LockedBy s m q (s.cfg.seqAt q).jobs)
    (hnodup : (s.cfg.seqAt q).jobs.Nodup) (hfree : ∀ j ∈ (s.cfg.seqAt q).jobs, (s.jobAt j).owner = none)
    (hm' : Calm m.board m') (h : scheduleJob b ctx (tget ((acceptSeq q m').cfg.seqAt q).jobs 0) (acceptSeq q m') = .ok t) :
    AtRest c t := by
  have haccept := acceptSeq_accepts hs.sched.fit hq hlocked hm'.board
  have hsched : Sched (acceptSeq q m') (s.planIn list [] (some ((acceptSeq q m').cursorJob q))) :=
    hs.sched.accept hfree haccept hq rfl hasync hnodup
  rw [← hlocked.sameSetting.planIn, ← board_planIn hm'.board] at hsched
  have hcfg : m'.cfg = c := (board_cfg hm'.board).trans (hlocked.sameSetting.cfg.trans hs.cfg)
  have hfirst : (acceptSeq q m').cursorJob q = tget ((acceptSeq q m').cfg.seqAt q).jobs 0 := by
    rw [State.cursorJob, haccept.seq]
  rw [← hfirst] at h
  exact scheduleJob_stands hb ((acceptSeq_sameSetting q m').stands hcfg hm'.waits hsched) h

theorem cmdAsyncTransmit_atRest {q : Nat} (hs : AtRest c s) (h : cmdAsyncTransmit b .foreground q s = .ok t) : AtRest c t := by
  unfold cmdAsyncTransmit at h
  split at h
  · cases h; exact hs.fail _ _ _
  · split at h
    · cases h; exact hs.fail _ _ _
    · split at h
      · cases h; exact hs.fail _ _ _
      · rename_i hrange
        have hq : q < s.cfg.numSeqs := by simpa [State.seqInRange] using hrange
        split at h
        · cases h; exact hs.fail _ _ _
        · rename_i hasync
          obtain ⟨m, hm, h⟩ := res_bind_eq_ok.1 h
          have hcalm := hb.calm hs.waits hm
          obtain ⟨list, hm'⟩ := hs.calm hcalm
          rw [← board_cfg hcalm.board] at hq
          rw [← seqIsSync_congr (board_cfg hcalm.board), Bool.not_eq_true] at hasync
          have htry : tryLock .foreground q m = lockJobs q m := if_neg List.not_mem_nil
          have hlt : ∀ j ∈ (m.cfg.seqAt q).jobs, j < m.job.length := fun j hj =>
            hm'.sched.fit.job_lt (hm'.sched.fit.seqJob_lt hq hj)
          obtain hlock | ⟨m1, hlock, hres, hlocked, hnodup, hfree⟩ := lockJobs_spec hlt
          · rw [htry, hlock] at h
            cases h
            exact AtRest.fail ⟨list, hm'⟩ _ _ _
          · rw [htry, hlock] at h
            obtain ⟨m2, hm2, h⟩ := res_bind_eq_ok.1 h
            obtain ⟨m3, hm3, h⟩ := res_bind_eq_ok.1 h
            cases h
            have hwaits := hlocked.sameSetting.waits hm'.waits
            exact (scheduleAccepted_atRest hb hm' hq hasync hlocked hnodup hfree (hb.calm hwaits hm2) hm3).respond _

end

section
variable {c : Cfg} {b : Boundary} (hb : Quiet b) {ctx : Ctx} {s t : State}
include hb

omit hb in
theorem eventServed_lt {s : State} {u : Nat} (h : s.eventServed u = true) : u < s.cfg.numUnits := by
  simp only [State.eventServed, Bool.and_eq_true, State.unitInRange, decide_eq_true_eq] at h
  obtain ⟨-, -, hu, -⟩ := h
  exact hu

theorem handleFifo_atRest {u : Nat} (hs : AtRest c s) (h : handleFifo b ctx u s = .ok t) : AtRest c t := by
  unfold handleFifo at h
  split at h
  · rename_i hserved
    obtain ⟨hserved, -⟩ := Bool.and_eq_true_iff.1 hserved
    exact isrFifoRx_atRest hb (hs.cfg ▸ eventServed_lt hserved) hs h
  · cases h; exact hs

theorem handleDmaTx_atRest {u : Nat} (hs : AtRest c s) (h : handleDmaTx b ctx u s = .ok t) : AtRest c t := by
  unfold handleDmaTx at h
  split at h
  · rename_i hserved
    obtain ⟨hserved, -⟩ := Bool.and_eq_true_iff.1 hserved
    exact isrDmaTx_atRest hb (hs.cfg ▸ eventServed_lt hserved) hs h
  · cases h; exact hs

theorem handleDmaRx_atRest {u : Nat} (hs : AtRest c s) (h : handleDmaRx b ctx u s = .ok t) : AtRest c t := by
  unfold handleDmaRx at h
  split at h
  · rename_i hserved
    obtain ⟨hserved, -⟩ := Bool.and_eq_true_iff.1 hserved
    exact isrDmaRx_atRest hb (hs.cfg ▸ eventServed_lt hserved) hs h
  · cases h; exact hs

end

/-! The synchronous engines, when nothing but moves comes between their segments (44_sync_transmit.md R305 to R310) -/

/-- The board with `CurJob` of unit `u` written. -/
def Board.setCur (b : Board) (u : Nat) (j : Option Nat) : Board := { b with cur := tset b.cur u j }

theorem setDev_board_cur (s : State) (u : Nat) (d : Dev) : (s.setDev u d).board = s.board.setCur u d.curJob := by
  show { s.board with cur := (s.dev.set u d).map Dev.curJob } = s.board.setCur u d.curJob
  rw [List.map_set]; rfl

theorem Board.setCur_setCur (b : Board) (u : Nat) (i j : Option Nat) : (b.setCur u i).setCur u j = b.setCur u j := by
  rw [Board.setCur, Board.setCur, Board.setCur, tset, tset, tset, List.set_set]

/-- A unit on which no job is in flight stays so. -/
theorem setCur_none {s : State} {u : Nat} (h : s.curOf u = none) : s.board.setCur u none = s.board := by
  rw [curOf_eq] at h
  have hcur : tset s.board.cur u none = s.board.cur := list_ext_tget (tset_length _ _ _) fun i => by
    by_cases hi : u = i
    · subst hi
      by_cases hu : u < s.board.cur.length
      · rw [tget_tset_same _ _ _ hu, h]
      · rw [tget_tset_out _ _ _ _ (by omega)]
    · rw [tget_tset_ne _ _ _ _ hi]
  rw [Board.setCur, hcur]

/-- The board after the passes of a channel: a time-out ends the job (R306). -/
def Board.afterPasses (b : Board) (u : Nat) : Option Nat → Board
  | some _ => b
  | none => b.setCur u none

section
variable {b : Boundary} (hb : Quiet b) {ctx : Ctx} {B : Board} {s t : State}
include hb

theorem syncPasses_calm {u c : Nat} {w : Width} {l : Bool} {n : Nat} {r : Option Nat} (hs : Calm B s)
    (h : syncPasses b ctx u c w l n s = .ok (r, t)) : Calm (B.afterPasses u r) t := by
  induction n generalizing s with
  | zero =>
    unfold syncPasses at h
    split at h
    · split at h
      · cases h
      · rename_i m hm
        cases h
        have hm' := hb _ _ _ _ hm hs
        refine ⟨?_, hm'.waits⟩
        show (m.setDev u _).board = _
        rw [setDev_board_cur, hm'.board]; rfl
    · cases h; exact hs
  | succ n ih =>
    unfold syncPasses at h
    split at h
    · split at h
      · cases h
      · rename_i hm
        split at h
        · cases h
        · rename_i hpass
          exact ih ((hb _ _ _ _ hm hs).syncPass hpass) h
    · cases h; exact hs

theorem syncChannels_calm {u : Nat} {l : List Nat} {k n : Nat} {r : Option Nat} (hs : Calm B s)
    (h : syncChannels b ctx u l k n s = .ok (r, t)) : Calm (B.afterPasses u r) t := by
  induction l generalizing s k n with
  | nil => cases h; exact hs
  | cons c rest ih =>
    obtain ⟨m0, hm0, h⟩ := res_bind_eq_ok.1 h
    obtain ⟨m1, hm1, h⟩ := res_bind_eq_ok.1 h
    obtain ⟨m2, hm2, h⟩ := res_bind_eq_ok.1 h
    obtain ⟨⟨r3, m3⟩, hm3, h⟩ := res_bind_eq_ok.1 h
    have h3 := syncPasses_calm hb (((hs.setChanIdx hm0).txChannelInit hm1).rxChannelInit hm2) hm3
    cases r3 with
    | none => cases h; exact h3
    | some n => exact ih h3 h

theorem fastChannels_calm {e : CacheEntry} {l : List CacheChan} {k n : Nat} {r : Option Nat} (hs : Calm B s)
    (h : fastChannels b ctx e l k n s = .ok (r, t)) : Calm (B.afterPasses e.unit r) t := by
  induction l generalizing s k n with
  | nil => cases h; exact hs
  | cons c rest ih =>
    obtain ⟨m0, hm0, h⟩ := res_bind_eq_ok.1 h
    obtain ⟨m1, hm1, h⟩ := res_bind_eq_ok.1 h
    obtain ⟨⟨r3, m3⟩, hm3, h⟩ := res_bind_eq_ok.1 h
    have h3 := syncPasses_calm hb ((hs.setChanIdx hm0).fastChannelInit hm1) hm3
    cases r3 with
    | none => cases h; exact h3
    | some n => exact ih h3 h

omit hb in
/-- The job has left its unit, by its end or by the time-out. -/
theorem syncJobEnd_calm {u : Nat} {r : Option Nat} {m : State} (hm : Calm (B.afterPasses u r) m)
    (h : syncJobEnd u (r, m) = (r, t)) : Calm (B.setCur u none) t := by
  cases r with
  | none => cases h; exact hm
  | some n =>
    cases h
    refine ⟨?_, hm.waits⟩
    show (m.setDev u _).board = _
    rw [setDev_board_cur, hm.board]; rfl

omit hb in
/-- A job that enters a free unit and leaves it again. -/
theorem enter_leave {u j : Nat} {m : State} (hnone : s.curOf u = none) (hm : Calm s.board m) :
    Calm (s.board.setCur u (some j)) (enterSyncJob u j m) ∧
    (s.board.setCur u (some j)).setCur u none = s.board := by
  refine ⟨⟨?_, hm.waits⟩, ?_⟩
  · show (m.setDev u _).board = _
    rw [setDev_board_cur, hm.board]
  · rw [Board.setCur_setCur, setCur_none hnone]

theorem syncJobTransfer_calm {j n : Nat} {r : Option Nat} (hs : s.noProcedureWaits = true) (hnone : s.curOf (s.unitOf j) = none)
    (h : syncJobTransfer b ctx j n s = .ok (r, t)) : Calm s.board t := by
  obtain ⟨m, hm, h⟩ := res_bind_eq_ok.1 h
  have hm' := hb.calm hs hm
  have hunit := unitOf_congr (board_cfg hm'.board) j
  split at h
  · cases h
  · obtain ⟨m2, hm2, h⟩ := res_bind_eq_ok.1 h
    obtain ⟨⟨r3, m3⟩, hm3, h⟩ := res_bind_eq_ok.1 h
    rw [hunit] at hm2 hm3 h
    obtain ⟨henter, hback⟩ := enter_leave (j := j) hnone (hm'.regWrite hm2)
    have h3 := syncChannels_calm hb henter hm3
    injection h with h
    have hr : r3 = r := by cases r3 <;> cases h <;> rfl
    rw [← hback]
    exact syncJobEnd_calm h3 (by rw [h, hr])

theorem fastJobTransfer_calm {e : CacheEntry} {n : Nat} {r : Option Nat} (hs : s.noProcedureWaits = true)
    (hnone : s.curOf e.unit = none) (h : fastJobTransfer b ctx e n s = .ok (r, t)) : Calm s.board t := by
  obtain ⟨m, hm, h⟩ := res_bind_eq_ok.1 h
  have hm' := hb.calm hs hm
  split at h
  · cases h
  · obtain ⟨m2, hm2, h⟩ := res_bind_eq_ok.1 h
    obtain ⟨⟨r3, m3⟩, hm3, h⟩ := res_bind_eq_ok.1 h
    obtain ⟨henter, hback⟩ := enter_leave (j := e.job) hnone (hm'.regWrite hm2)
    have h3 := fastChannels_calm hb henter hm3
    injection h with h
    have hr : r3 = r := by cases r3 <;> cases h <;> rfl
    rw [← hback]
    exact syncJobEnd_calm h3 (by rw [h, hr])

end

/-! Writing a result twice -/

theorem setJobResult_board {s t : State} (h : t.board = s.board) (j : Nat) (r : JobResult) :
    (t.setJobResult j r).board = (s.setJobResult j r).board := by
  show { t.board with job := tset t.job j { t.jobAt j with result := r } } =
    { s.board with job := tset s.job j { s.jobAt j with result := r } }
  rw [h, board_job h, board_jobAt h]

theorem setSeqResult_board {s t : State} (h : t.board = s.board) (q : Nat) (r : SeqResult) :
    (t.setSeqResult q r).board = (s.setSeqResult q r).board := by
  show { t.board with seq := tset t.seq q { t.seqAt q with result := r } } =
    { s.board with seq := tset s.seq q { s.seqAt q with result := r } }
  rw [h, board_seq h, board_seqAt h]

theorem setJobResult_setJobResult {s : State} {j : Nat} (hj : j < s.job.length) (a r : JobResult) :
    (s.setJobResult j a).setJobResult j r = s.setJobResult j r := by
  have hjobAt : (s.setJobResult j a).jobAt j = { s.jobAt j with result := a } := jobAt_setJob_same s j _ hj
  show { s with job := tset (tset s.job j _) j { (s.setJobResult j a).jobAt j with result := r } } = _
  rw [hjobAt, tset, tset, List.set_set]; rfl

theorem setSeqResult_setSeqResult {s : State} {q : Nat} (hq : q < s.seq.length) (a r : SeqResult) :
    (s.setSeqResult q a).setSeqResult q r = s.setSeqResult q r := by
  have hseqAt : (s.setSeqResult q a).seqAt q = { s.seqAt q with result := a } := seqAt_setSeq_same s q _ hq
  show { s with seq := tset (tset s.seq q _) q { (s.setSeqResult q a).seqAt q with result := r } } = _
  rw [hseqAt, tset, tset, List.set_set]; rfl

/-! `SYNC_TRANSMIT` (R303) -/

/-- Scheduling is in order but for the result of sequence `q`, which is being transmitted. -/
def Apart (c : Cfg) (q : Nat) (s : State) : Prop := AtRest c (s.setSeqResult q .ok)

/-- No job is in flight on a synchronous unit. -/
theorem Sched.cur_none_of_sync {s : State} {π : Plan} (h : Sched s π) {u : Nat} (hu : u < s.cfg.numUnits)
    (hsync : (s.cfg.unitAt u).isSync = true) : π.cur u = none := by
  cases hcur : π.cur u with
  | none => rfl
  | some j =>
    obtain ⟨-, hj, hunit, -, hlocked⟩ := h.units.busy u hu j hcur
    have hasync := h.async_of_locked hj hlocked
    rw [hunit, hsync] at hasync
    cases hasync

/-- A job of a synchronous sequence. -/
structure SyncJob (c : Cfg) (j : Nat) : Prop where
  lt : j < c.numJobs
  sync : (c.unitAt (c.jobAt j).hwUnit).isSync = true

/-- A cache entry is that of a sequence of one job (10_state.md R67, R302). -/
theorem mem_fillCache {p : Params} {cfg : Cfg} {l : List SeqCfg} {k n used : Nat} {e : CacheEntry}
    (h : e ∈ fillCache p cfg l k n used) : ∃ i x j, l[i]? = some x ∧ x.jobs = [j] ∧ e = cacheEntry p cfg (k + i) j := by
  induction l generalizing k n used with
  | nil => cases h
  | cons y rest ih =>
    have hlater : ∀ {n used}, e ∈ fillCache p cfg rest (k + 1) n used →
        ∃ i x j, (y :: rest)[i]? = some x ∧ x.jobs = [j] ∧ e = cacheEntry p cfg (k + i) j := fun h => by
      obtain ⟨i, x, j, hx, hjobs, he⟩ := ih h
      exact ⟨i + 1, x, j, hx, hjobs, by rw [he, Nat.add_assoc, Nat.add_comm 1]⟩
    simp only [fillCache] at h
    split at h
    · rename_i j hjobs
      split at h
      · obtain he | h := List.mem_cons.1 h
        · exact ⟨0, y, j, rfl, hjobs, he⟩
        · exact hlater h
      · exact hlater h
    · exact hlater h

/-- The cache entry that is found for a sequence is its own (R304). -/
theorem Fit.cacheEntryOf_eq {s : State} (h : Fit s) {q : Nat} {e : CacheEntry} (he : cacheEntryOf q s = some e) :
    ∃ j, (s.cfg.seqAt q).jobs = [j] ∧ e = cacheEntry s.params s.cfg q j := by
  have hfound : decide (e.seq = q) = true := List.find?_some (p := fun e : CacheEntry => decide (e.seq = q)) he
  have hseq : e.seq = q := of_decide_eq_true hfound
  have hmem : e ∈ seqCacheOf s.params s.cfg := h.cache ▸ List.mem_of_find?_eq_some he
  unfold seqCacheOf at hmem
  split at hmem
  · obtain ⟨i, x, j, hx, hjobs, rfl⟩ := mem_fillCache hmem
    obtain rfl : 0 + i = q := hseq
    refine ⟨j, ?_, rfl⟩
    rw [Nat.zero_add, Cfg.seqAt, tget, List.getD_eq_getElem?_getD, hx]; exact hjobs
  · cases hmem

namespace Apart

variable {c : Cfg} {q : Nat} {s t : State} (hs : Apart c q s)
include hs

theorem waits : s.noProcedureWaits = true := AtRest.waits (s := s.setSeqResult q .ok) hs

theorem refl : Calm s.board s := .refl hs.waits

theorem calm (ht : Calm s.board t) : Apart c q t :=
  AtRest.calm hs ⟨setSeqResult_board ht.board q .ok, ht.waits⟩

theorem setJobResult {j : Nat} {r : JobResult} (hj : SyncJob c j) (hr : r ≠ .pending) : Apart c q (s.setJobResult j r) := by
  obtain ⟨list, hs⟩ := hs
  have hcfg : s.cfg = c := hs.cfg
  subst hcfg
  exact ⟨list, rfl, hs.sched.setJobResult_sync hj.lt hj.sync hr, hs.waits⟩

theorem curOf_none {j : Nat} (hj : SyncJob c j) : s.curOf (s.unitOf j) = none := by
  obtain ⟨list, hs⟩ := hs
  have hcfg : s.cfg = c := hs.cfg
  subst hcfg
  exact hs.sched.cur_none_of_sync (hs.sched.fit.unitOf_lt hj.lt) hj.sync

theorem job_lt {j : Nat} (hj : SyncJob c j) : j < s.job.length := by
  obtain ⟨list, hs⟩ := hs
  have hcfg : s.cfg = c := hs.cfg
  subst hcfg
  exact hs.sched.fit.job_lt hj.lt

theorem cfg : s.cfg = c := AtRest.cfg (s := s.setSeqResult q .ok) hs

theorem cacheEntryOf_eq {e : CacheEntry} (he : cacheEntryOf q s = some e) :
    ∃ j, (c.seqAt q).jobs = [j] ∧ e = cacheEntry s.params c q j := by
  have hcfg := Apart.cfg hs
  obtain ⟨list, hs⟩ := hs
  subst hcfg
  exact hs.sched.fit.cacheEntryOf_eq (q := q) he

/-- The result of a job may be anything in between, once it is written again. -/
theorem setJobResult_of_calm {j : Nat} {a r : JobResult} (hj : SyncJob c j) (hr : r ≠ .pending)
    (ht : Calm (s.setJobResult j a).board t) : Apart c q (t.setJobResult j r) := by
  refine (hs.setJobResult hj hr).calm ⟨?_, ht.waits⟩
  rw [setJobResult_board ht.board, setJobResult_setJobResult (hs.job_lt hj)]

end Apart

theorem syncVerdict_ne_pending (r : Option Nat) : syncVerdict r ≠ .pending := by
  cases r <;> nofun

section
variable {c : Cfg} {b : Boundary} (hb : Quiet b) {ctx : Ctx} {q : Nat} {s t : State}
include hb

theorem syncJobs_apart {l : List Nat} {n r : Option Nat} (hl : ∀ j ∈ l, SyncJob c j) (hs : Apart c q s)
    (h : syncJobs b ctx l n s = .ok (r, t)) : Apart c q t := by
  induction l generalizing s n with
  | nil => cases h; exact hs
  | cons j rest ih =>
    have hj := hl j List.mem_cons_self
    have hrest : ∀ i ∈ rest, SyncJob c i := fun i hi => hl i (List.mem_cons_of_mem j hi)
    cases n with
    | none =>
      obtain ⟨m, hm, h⟩ := res_bind_eq_ok.1 h
      have hm' := (hs.calm (hb.calm hs.waits hm)).setJobResult (r := .failed) hj nofun
      exact ih hrest (hm'.calm hm'.refl.notify) h
    | some n =>
      obtain ⟨m, hm, h⟩ := res_bind_eq_ok.1 h
      obtain ⟨⟨left, m2⟩, hm2, h⟩ := res_bind_eq_ok.1 h
      obtain ⟨m3, hm3, h⟩ := res_bind_eq_ok.1 h
      have hm' := hs.calm (hb.calm hs.waits hm)
      have hbegin : Calm (m.setJobResult j .pending).board (syncJobBegin j m) :=
        (Calm.refl (s := m.setJobResult j .pending) hm'.waits).notify
      have hnone : (syncJobBegin j m).curOf ((syncJobBegin j m).unitOf j) = none := by
        rw [board_curOf hbegin.board, unitOf_congr (board_cfg hbegin.board)]
        exact hm'.curOf_none hj
      have hm2' := syncJobTransfer_calm hb hbegin.waits hnone hm2
      rw [hbegin.board] at hm2'
      have hm3' := hm'.setJobResult_of_calm hj (syncVerdict_ne_pending left) (hb _ _ _ _ hm3 hm2')
      exact ih hrest (hm3'.calm hm3'.refl.notify) h

/-- The fast path, for a cache entry of a synchronous job (R310). -/
theorem syncSeqFast_apart {e : CacheEntry} {n : Nat} {r : Option Nat} (hj : SyncJob c e.job) (hstatus : e.jobStatus = e.job)
    (hunit : e.unit = (c.jobAt e.job).hwUnit) (hs : Apart c q s) (h : syncSeqFast b ctx e n s = .ok (r, t)) : Apart c q t := by
  obtain ⟨m, hm, h⟩ := res_bind_eq_ok.1 h
  obtain ⟨⟨left, m2⟩, hm2, h⟩ := res_bind_eq_ok.1 h
  obtain ⟨m3, hm3, h⟩ := res_bind_eq_ok.1 h
  injection h with h
  injection h with hr ht
  subst hr ht
  rw [hstatus] at hm2 ⊢
  have hm' := hs.calm (hb.calm hs.waits hm)
  have hbegin := (Calm.refl (s := m.setJobResult e.job .pending) hm'.waits).notify (on := (m.cfg.jobAt e.job).startNotif)
    (k := .jobStart) (i := e.job)
  have hm2' := fastJobTransfer_calm hb hbegin.waits (by
    rw [board_curOf hbegin.board, hunit, ← Apart.cfg hm']; exact hm'.curOf_none hj) hm2
  rw [hbegin.board] at hm2'
  have hm3' := hm'.setJobResult_of_calm hj (syncVerdict_ne_pending left) (hb _ _ _ _ hm3 hm2')
  exact hm3'.calm hm3'.refl.notify

/-- The jobs of a synchronous sequence. -/
theorem syncTransfer_apart {n : Nat} {r : Option Nat} (hl : ∀ j ∈ (c.seqAt q).jobs, SyncJob c j) (hs : Apart c q s)
    (h : syncTransfer b ctx q n s = .ok (r, t)) : Apart c q t := by
  unfold syncTransfer at h
  split at h
  · rename_i e he
    obtain ⟨j, hjobs, rfl⟩ := hs.cacheEntryOf_eq he
    have hj : j ∈ (c.seqAt q).jobs := by rw [hjobs]; exact List.mem_cons_self
    exact syncSeqFast_apart hb (hl j hj) rfl rfl hs h
  · rw [syncSeqGeneral, Apart.cfg hs] at h
    exact syncJobs_apart hb hl hs h

omit hb in
/-- What a claim or a release writes in the result of the sequence, and in the mask of the busy units. -/
theorem Apart.of_atRest {r : SeqResult} (hs : AtRest c s) (hq : q < s.cfg.numSeqs) (hsync : s.seqIsSync q = true)
    (ht : Calm (s.setSeqResult q r).board t) : Apart c q t := by
  obtain ⟨list, hs⟩ := hs
  have hok : AtRest c (s.setSeqResult q .ok) := ⟨list, hs.cfg, hs.sched.setSeqResult_sync hq hsync nofun nofun, hs.waits⟩
  refine hok.calm ⟨?_, ht.waits⟩
  rw [setSeqResult_board ht.board, setSeqResult_setSeqResult (hs.sched.fit.seq_lt hq)]

omit hb in
theorem Apart.atRest {r : SeqResult} (hs : Apart c q s) (hq : q < s.cfg.numSeqs) (hsync : s.seqIsSync q = true)
    (hpending : r ≠ .pending) (hcancelled : r ≠ .cancelled) (ht : Calm (s.setSeqResult q r).board t) : AtRest c t := by
  obtain ⟨list, hs⟩ := hs
  have hlt : q < s.seq.length := by
    have hseq : q < (tset s.seq q { s.seqAt q with result := .ok }).length := hs.sched.fit.seq_lt hq
    rwa [tset_length] at hseq
  have hr := hs.sched.setSeqResult_sync hq hsync hpending hcancelled
  rw [setSeqResult_setSeqResult hlt] at hr
  exact AtRest.calm (s := s.setSeqResult q r) ⟨list, hs.cfg, hr, hs.waits⟩ ht

/-- From the claim of the units to their release (R303, R312). -/
theorem syncRun_atRest (hq : q < s.cfg.numSeqs) (hsync : s.seqIsSync q = true) (hs : AtRest c s)
    (h : syncRun b ctx q (claimSync q s) = .ok t) : AtRest c t := by
  obtain ⟨⟨left, m⟩, hm, h⟩ := res_bind_eq_ok.1 h
  obtain ⟨m2, hm2, h⟩ := res_bind_eq_ok.1 h
  obtain ⟨m3, hm3, h⟩ := res_bind_eq_ok.1 h
  cases h
  have hcfg := hs.cfg
  have hfit := hs.fit
  have hl : ∀ j ∈ (c.seqAt q).jobs, SyncJob c j := by
    subst hcfg
    exact fun j hj => ⟨hfit.seqJob_lt hq hj, (hfit.isSync_eq hq hj).trans hsync⟩
  have hclaim : Apart c q (claimSync q s) := Apart.of_atRest hs hq hsync (r := .pending) ⟨rfl, hs.waits⟩
  have hm' := syncTransfer_apart hb hl hclaim hm
  have hm2' := hm'.calm (hb.calm hm'.waits hm2)
  have hcfg2 : m2.cfg = s.cfg := (Apart.cfg hm2').trans hcfg.symm
  have hrelease : AtRest c (releaseSync q left.isNone m2) :=
    hm2'.atRest (r := if left.isNone = true then .failed else .ok) (by rw [hcfg2]; exact hq) (by rw [seqIsSync_congr hcfg2]; exact hsync)
      (by split <;> nofun) (by split <;> nofun) ⟨rfl, hm2'.waits⟩
  have hm3' := hrelease.calm (hb.calm hrelease.waits hm3)
  refine AtRest.respond (AtRest.notify ?_) _
  split
  · exact hm3'.calm hm3'.refl.reportDemTimeout
  · exact hm3'

theorem cmdSyncTransmit_atRest (hs : AtRest c s) (h : cmdSyncTransmit b ctx q s = .ok t) : AtRest c t := by
  unfold cmdSyncTransmit at h
  split at h
  · cases h; exact hs.fail _ _ _
  · split at h
    · cases h; exact hs.fail _ _ _
    · split at h
      · cases h; exact hs.fail _ _ _
      · rename_i hrange
        have hq : q < s.cfg.numSeqs := by simpa [State.seqInRange] using hrange
        split at h
        · cases h; exact hs.fail _ _ _
        · rename_i hsync
          rw [Bool.not_eq_false] at hsync
          obtain ⟨m, hm, h⟩ := res_bind_eq_ok.1 h
          have hcalm := hb.calm hs.waits hm
          have hm' := hs.calm hcalm
          rw [← board_cfg hcalm.board] at hq
          rw [← seqIsSync_congr (board_cfg hcalm.board)] at hsync
          split at h
          · cases h; exact hm'.fail _ _ _
          · exact syncRun_atRest hb hq hsync hm' h

end

/-! `INIT` and `DEINIT` (40_lifecycle_buffers_queries.md R171 to R174, 10_state.md R72, R74) -/

theorem tget_mapFirst {α : Type} [Inhabited α] (f : α → α) {n i : Nat} {l : List α} (hi : i < n) (hl : i < l.length) :
    tget (mapFirst f n l) i = f (tget l i) := by
  induction l generalizing n i with
  | nil => cases hl
  | cons x rest ih =>
    cases n with
    | zero => cases hi
    | succ n =>
      cases i with
      | zero => rfl
      | succ i => exact ih (Nat.lt_of_succ_lt_succ hi) (Nat.lt_of_succ_lt_succ hl)

theorem tget_map_const {α β : Type} [Inhabited β] (b : β) {l : List α} {i : Nat} (hi : i < l.length) :
    tget (l.map fun _ => b) i = b := by
  rw [tget_eq_getElem _ _ (by rwa [List.length_map]), List.getElem_map]

/-- The hardware initialisation leaves the board alone. -/
theorem board_hwClosed (b : Board) : HwClosed fun m => m.board = b where
  move _ _ _ hm hs := (agentMove_board hm).trans hs
  inputs _ _ hs := hs
  emit _ _ hs := hs
  poke _ _ _ hs := hs
  setDma _ _ _ hs := hs
  setBase s u _ hs := (setDev_board s u (by rfl)).trans hs

section
variable {c : Cfg} {s t : State} (hfit : Fit t) (ht : t.board = { (initTables c s).board with drvInit := true })
include hfit ht

theorem unitAt_of_init {u : Nat} (hu : u < t.cfg.numUnits) : t.unitAt u = initUnit := by
  have hcfg : t.cfg = c := congrArg Board.cfg ht
  have hunit : t.unit = mapFirst (fun _ => initUnit) c.numUnits s.unit := congrArg Board.unit ht
  have hlt := hfit.unit_lt hu
  rw [hunit, mapFirst_length] at hlt
  rw [State.unitAt, hunit, tget_mapFirst _ (hcfg ▸ hu) hlt]

theorem curOf_of_init {u : Nat} (hu : u < t.cfg.numUnits) : t.curOf u = none := by
  have hcfg : t.cfg = c := congrArg Board.cfg ht
  have hcur : t.board.cur = (mapFirst initDev c.numUnits s.dev).map Dev.curJob := congrArg Board.cur ht
  have hlt : u < s.dev.length := by
    have hlen := congrArg List.length hcur
    have hdev := hfit.dev_lt hu
    rw [List.length_map, mapFirst_length] at hlen
    have : t.board.cur.length = t.dev.length := List.length_map _
    omega
  rw [curOf_eq, hcur, tget_map (f := Dev.curJob) rfl, tget_mapFirst _ (hcfg ▸ hu) hlt]
  rfl

omit hfit in
theorem jobAt_of_init {j : Nat} (hj : j < t.cfg.numJobs) : t.jobAt j = initJob := by
  have hcfg : t.cfg = c := congrArg Board.cfg ht
  have hjob : t.job = c.jobs.map fun _ => initJob := congrArg Board.job ht
  rw [State.jobAt, hjob]
  exact tget_map_const initJob (hcfg ▸ hj)

omit hfit in
theorem seqAt_of_init {q : Nat} (hq : q < t.cfg.numSeqs) : t.seqAt q = initSeq := by
  have hcfg : t.cfg = c := congrArg Board.cfg ht
  have hseq : t.seq = c.seqs.map fun _ => initSeq := congrArg Board.seq ht
  rw [State.seqAt, hseq]
  exact tget_map_const initSeq (hcfg ▸ hq)

/-- After `INIT` nothing waits, nothing is in flight and nothing is locked. -/
theorem sched_of_init (hqueues : t.queuesOk = true) : Sched t (t.planOf fun _ _ => []) where
  fit := hfit
  lists := by
    refine ⟨fun u hu => List.all_eq_true.1 (queuesOk_iff.1 hqueues).1 _ (tget_mem t.unit u (hfit.unit_lt hu)), fun u hu p hp => ?_⟩
    have hempty : tget [none, none, none, none] p = (none : Option Nat) := by
      rcases p with _ | _ | _ | _ | p <;> rfl
    refine ⟨?_, ?_, List.nodup_nil, fun _ hj => nomatch hj⟩ <;> rw [unitAt_of_init hfit ht hu] <;> exact hempty
  units := by
    refine ⟨fun u hu _ _ => ⟨by rw [unitAt_of_init hfit ht hu]; rfl, fun _ _ => rfl⟩, fun u hu j hc => ?_, fun _ hu => (nomatch hu),
      fun j hj hres => ?_⟩
    · have hnone := curOf_of_init hfit ht hu
      rw [show t.curOf u = some j from hc] at hnone; cases hnone
    · rw [jobAt_of_init ht hj] at hres; cases hres
  locks := by
    refine ⟨fun j hj q ho => ?_, fun q hq hres => ?_, fun q hq hres => ?_, fun _ hn => nomatch hn⟩
    · rw [jobAt_of_init ht hj] at ho; cases ho
    · rw [seqAt_of_init ht hq] at hres; cases hres
    · rw [seqAt_of_init ht hq] at hres; cases hres

end

theorem schedOk_of_uninit {s : State} (h : s.drvInit = false) : s.schedOk = true := by
  rw [State.schedOk, h]; rfl

/-- What an `INIT` that finds the driver uninitialised answers. -/
theorem cmdInit_schedOk {a : Word} {s t : State} (hoff : s.drvInit = false) (htables : t.tablesOk = true) (hqueues : t.queuesOk = true)
    (h : cmdInit a s = .ok t) : t.schedOk = true := by
  have hfail : ∀ e, (fail 0x01 e 0 s).schedOk = true := fun e => schedOk_of_uninit ((fail_drvInit s _ _ _).trans hoff)
  unfold cmdInit at h
  split at h
  · cases h; exact hfail _
  · split at h
    · cases h; exact hfail _
    · split at h
      · cases h; exact hfail _
      · split at h
        · rename_i c _ _
          obtain ⟨m, hm, h⟩ := res_bind_eq_ok.1 h
          obtain ⟨m', hboard, rfl⟩ := (board_hwClosed _).initWith hm rfl
          cases h
          refine schedOk_of_sched (sched_of_init (c := c) (s := s) (fit_of_tablesOk htables rfl) ?_ hqueues)
          show { m'.board with drvInit := true } = _
          rw [hboard]
        · cases h; exact hfail _

/-- Every instruction but `INIT` leaves an uninitialised driver as it is (60_exceptions.md R394). -/
theorem runInstr_uninit {b : Boundary} {ctx : Ctx} {i : Instr} {s t : State} (hi : ∀ a, i ≠ .init a) (hoff : s.drvInit = false)
    (h : runInstr b ctx i s = .ok t) : t.drvInit = false := by
  have hfail : ∀ op e v, (fail op e v s).drvInit = false := fun op e v => (fail_drvInit s op e v).trans hoff
  have hserved : ∀ u, s.eventServed u = false := fun u => by simp [State.eventServed, hoff]
  cases i with
  | init a => exact absurd rfl (hi a)
  | deinit => simp only [runInstr, cmdDeinit, if_pos hoff] at h; cases h; exact hfail _ _ _
  | writeIb => simp only [runInstr, cmdWriteIb, if_pos hoff] at h; cases h; exact hfail _ _ _
  | readIb => simp only [runInstr, cmdReadIb, if_pos hoff] at h; cases h; exact hfail _ _ _
  | setupEb => simp only [runInstr, cmdSetupEb, if_pos hoff] at h; cases h; exact hfail _ _ _
  | syncTransmit => simp only [runInstr, cmdSyncTransmit, if_pos hoff] at h; split at h <;> cases h <;> exact hfail _ _ _
  | asyncTransmit => simp only [runInstr, cmdAsyncTransmit, if_pos hoff] at h; split at h <;> cases h <;> exact hfail _ _ _
  | cancel => simp only [runInstr, cmdCancel, if_pos hoff] at h; split at h <;> cases h <;> exact hfail _ _ _
  | getJobResult => simp only [runInstr, cmdGetJobResult, if_pos hoff] at h; cases h; exact hfail _ _ _
  | getSeqResult => simp only [runInstr, cmdGetSeqResult, if_pos hoff] at h; cases h; exact hfail _ _ _
  | getStatus => cases h; exact hoff
  | getHwunitStatus => simp only [runInstr, cmdGetHwunitStatus, if_pos hoff] at h; cases h; exact hfail _ _ _
  | setAsyncMode => simp only [runInstr, cmdSetAsyncMode, if_pos hoff] at h; split at h <;> cases h <;> exact hfail _ _ _
  | setHwunitAsyncMode => simp only [runInstr, cmdSetHwunitAsyncMode, if_pos hoff] at h; split at h <;> cases h <;> exact hfail _ _ _
  | mainFunctionHandling =>
    simp only [runInstr, cmdMainFunctionHandling, if_pos hoff] at h
    split at h <;> cases h
    · exact hfail _ _ _
    · exact hoff
  | evFifo u =>
    simp only [runInstr, handleFifo, State.fifoServed, hserved, Bool.false_and, Bool.false_eq_true, if_false] at h
    cases h; exact hoff
  | evDmaTx u =>
    simp only [runInstr, handleDmaTx, State.dmaServed, hserved, Bool.false_and, Bool.false_eq_true, if_false] at h
    cases h; exact hoff
  | evDmaRx u =>
    simp only [runInstr, handleDmaRx, State.dmaServed, hserved, Bool.false_and, Bool.false_eq_true, if_false] at h
    cases h; exact hoff

/-! The commands of one segment -/

section
variable {c : Cfg} {s t : State} (hs : AtRest c s)
include hs

theorem cmdInit_atRest {a : Word} (hon : s.drvInit = true) (h : cmdInit a s = .ok t) : AtRest c t := by
  rw [cmdInit, if_pos hon] at h
  cases h; exact hs.fail _ _ _

theorem cmdDeinit_schedOk (h : cmdDeinit s = .ok t) : t.schedOk = true := by
  unfold cmdDeinit at h
  split at h
  · cases h; exact (hs.fail _ _ _).schedOk
  · split at h <;> cases h
    · exact (hs.respond _).schedOk
    · exact schedOk_of_uninit rfl

theorem AtRest.setChan (k : Nat) (v : ChanState) : AtRest c (s.setChan k v) := hs.calm ⟨rfl, hs.waits⟩

theorem AtRest.setMem (m : Memory) : AtRest c (s.setMem m) := hs.calm ⟨rfl, hs.waits⟩

theorem cmdWriteIb_atRest {k : Nat} {a : Word} (h : cmdWriteIb k a s = .ok t) : AtRest c t := by
  unfold cmdWriteIb at h
  split at h
  · cases h; exact hs.fail _ _ _
  · split at h
    · cases h; exact hs.fail _ _ _
    · split at h
      · cases h; exact hs.fail _ _ _
      · split at h
        · cases h; exact hs.respond _
        · split at h
          · cases h; exact (hs.setChan _ _).respond _
          · split at h
            · cases h; exact hs.fail _ _ _
            · obtain ⟨m, hm, h⟩ := res_bind_eq_ok.1 h
              cases h
              simp only [fillInternal] at hm
              split at hm
              · cases hm
              · split at hm <;> cases hm
                exact ((hs.setMem _).setChan _ _).respond _

theorem cmdReadIb_atRest {k : Nat} {a : Word} (h : cmdReadIb k a s = .ok t) : AtRest c t := by
  unfold cmdReadIb at h
  split at h
  · cases h; exact hs.fail _ _ _
  · split at h
    · cases h; exact hs.fail _ _ _
    · split at h
      · cases h; exact hs.fail _ _ _
      · split at h
        · cases h; exact hs.fail _ _ _
        · split at h <;> cases h
          exact (hs.setMem _).respond _

theorem cmdSetupEb_atRest {k : Nat} {a0 a1 a2 : Word} (h : cmdSetupEb k a0 a1 a2 s = .ok t) : AtRest c t := by
  unfold cmdSetupEb at h
  split at h
  · cases h; exact hs.fail _ _ _
  · split at h
    · cases h; exact hs.fail _ _ _
    · split at h
      · cases h; exact hs.fail _ _ _
      · split at h
        · cases h; exact hs.fail _ _ _
        · split at h
          · cases h; exact hs.fail _ _ _
          · split at h <;> cases h
            · exact hs.respond _
            · exact (hs.setChan _ _).respond _

theorem cmdGetJobResult_atRest {j : Nat} (h : cmdGetJobResult j s = .ok t) : AtRest c t := by
  unfold cmdGetJobResult at h
  split at h
  · cases h; exact hs.fail _ _ _
  · split at h <;> cases h
    · exact hs.fail _ _ _
    · exact hs.respond _

theorem cmdGetSeqResult_atRest {q : Nat} (h : cmdGetSeqResult q s = .ok t) : AtRest c t := by
  unfold cmdGetSeqResult at h
  split at h
  · cases h; exact hs.fail _ _ _
  · split at h <;> cases h
    · exact hs.fail _ _ _
    · exact hs.respond _

theorem cmdGetHwunitStatus_atRest {u : Nat} (h : cmdGetHwunitStatus u s = .ok t) : AtRest c t := by
  unfold cmdGetHwunitStatus at h
  split at h
  · cases h; exact hs.fail _ _ _
  · split at h
    · cases h; exact hs.fail _ _ _
    · split at h <;> cases h <;> exact hs.respond _

theorem AtRest.setMode (u : Nat) (m : Mode) : AtRest c (setMode u m s) := hs.calm (hs.refl.setDev u rfl)

omit hs in
theorem AtRest.setModes (m : Mode) (l : List Nat) (hs : AtRest c s) : AtRest c (setModes m l s) := by
  induction l generalizing s with
  | nil => exact hs
  | cons u rest ih =>
    simp only [Machine.setModes]
    split
    · exact ih hs
    · exact ih (hs.setMode u m)

theorem cmdSetAsyncMode_atRest {m : Mode} (h : cmdSetAsyncMode m s = .ok t) : AtRest c t := by
  unfold cmdSetAsyncMode at h
  split at h
  · cases h; exact hs.fail _ _ _
  · split at h
    · cases h; exact hs.fail _ _ _
    · split at h <;> cases h
      · exact hs.respond _
      · exact (hs.setModes _ _).respond _

theorem cmdSetHwunitAsyncMode_atRest {u : Nat} {m : Mode} (h : cmdSetHwunitAsyncMode u m s = .ok t) : AtRest c t := by
  unfold cmdSetHwunitAsyncMode at h
  split at h
  · cases h; exact hs.fail _ _ _
  · split at h
    · cases h; exact hs.fail _ _ _
    · split at h
      · cases h; exact hs.fail _ _ _
      · split at h <;> cases h
        · exact hs.respond _
        · exact (hs.setMode _ _).respond _

/-- Every instruction keeps scheduling in order while the driver is initialised. -/
theorem runInstr_schedOk {b : Boundary} (hb : Quiet b) {i : Instr} (hon : s.drvInit = true)
    (h : runInstr b .foreground i s = .ok t) : t.schedOk = true := by
  cases i with
  | init a => exact (cmdInit_atRest hs hon h).schedOk
  | deinit => exact cmdDeinit_schedOk hs h
  | writeIb k a => exact (cmdWriteIb_atRest hs h).schedOk
  | readIb k a => exact (cmdReadIb_atRest hs h).schedOk
  | setupEb k a0 a1 a2 => exact (cmdSetupEb_atRest hs h).schedOk
  | syncTransmit q => exact (cmdSyncTransmit_atRest hb hs h).schedOk
  | asyncTransmit q => exact (cmdAsyncTransmit_atRest hb hs h).schedOk
  | cancel q => exact (cmdCancel_atRest hb hs h).schedOk
  | getJobResult j => exact (cmdGetJobResult_atRest hs h).schedOk
  | getSeqResult q => exact (cmdGetSeqResult_atRest hs h).schedOk
  | getStatus => cases h; exact (hs.respond _).schedOk
  | getHwunitStatus u => exact (cmdGetHwunitStatus_atRest hs h).schedOk
  | setAsyncMode m => exact (cmdSetAsyncMode_atRest hs h).schedOk
  | setHwunitAsyncMode u m => exact (cmdSetHwunitAsyncMode_atRest hs h).schedOk
  | mainFunctionHandling => exact (cmdMainFunctionHandling_atRest hb hs h).schedOk
  | evFifo u => exact (handleFifo_atRest hb hs h).schedOk
  | evDmaTx u => exact (handleDmaTx_atRest hb hs h).schedOk
  | evDmaRx u => exact (handleDmaRx_atRest hb hs h).schedOk

end

/-! The step -/

/-- The next stimulus is taken from the inputs, and the board stays. -/
theorem nextStimulus_board {s s' : State} {x : Stimulus} (h : nextStimulus s = some (x, s')) : s'.board = s.board := by
  unfold nextStimulus at h
  split at h
  · cases h; rfl
  · split at h <;> cases h
    rfl

theorem takeWord_keep (s : State) (p : PortWords) : (s.takeWord p).board = s.board ∧ (s.takeWord p).inputs = s.inputs := by
  cases p <;> exact ⟨rfl, rfl⟩

theorem reservedWord_board (s : State) (p : PortWords) : (reservedWord p s).board = s.board := by
  cases p with
  | command cmd =>
    show (raise (opField cmd) .reservedCmd s).board = s.board
    unfold raise
    split <;> rfl
  | event evt => rfl

theorem schedOk_of_board {s t : State} (htables : s.tablesOk = true) (hqueues : s.queuesOk = true) (hsched : s.schedOk = true)
    (h : t.board = s.board) : t.schedOk = true := by
  cases hon : s.drvInit with
  | false => exact schedOk_of_uninit ((board_drvInit h).trans hon)
  | true =>
    have ht := (sched_of_schedOk (fit_of_tablesOk htables hon) hqueues hsched).of_board h
    rw [← board_planOf h] at ht
    exact schedOk_of_sched ht

/-- Settles O14: in between, a plan says where each job stands; every segment of the scheduler moves along it, and what runs between
the segments leaves the board alone. -/
theorem stepKeepsScheduling : Obligations.StepKeepsScheduling := by
  unfold Obligations.StepKeepsScheduling
  intro s t htables hqueues hsched hquiet h
  have htables' := stepKeepsTables s t htables h
  have hqueues' := stepKeepsQueues s t hqueues h
  unfold step at h
  split at h
  · cases h; exact hsched
  · rename_i p s' hnext
    obtain ⟨htaken, hinputs⟩ := takeWord_keep s' p
    have hboard : (s'.takeWord p).board = s.board := htaken.trans (nextStimulus_board hnext)
    have hwaits : (s'.takeWord p).noProcedureWaits = true :=
      (noProcedureWaits_congr (board_params htaken) hinputs).trans (hquiet _ _ hnext)
    split at h
    · rename_i i _
      rw [exec_eq_runInstr, outcome_eq_next] at h
      cases hon : s.drvInit with
      | true =>
        have hfit := fit_of_tablesOk htables hon
        have hstands : Stands s.cfg (s'.takeWord p) s.level [] none :=
          ⟨board_cfg hboard, by rw [board_planIn hboard]; exact (sched_of_schedOk hfit hqueues hsched).of_board hboard, hwaits⟩
        exact runInstr_schedOk ⟨_, hstands⟩ (deliver_quiet _) ((board_drvInit hboard).trans hon) h
      | false =>
        have hoff := (board_drvInit hboard).trans hon
        by_cases hinit : ∃ a, i = .init a
        · obtain ⟨a, rfl⟩ := hinit
          exact cmdInit_schedOk hoff htables' hqueues' h
        · exact schedOk_of_uninit (runInstr_uninit (fun a ha => hinit ⟨a, ha⟩) hoff h)
    · cases h
      exact schedOk_of_board htables hqueues hsched ((reservedWord_board _ p).trans hboard)
  · rename_i hnext
    rw [outcome_eq_next] at h
    exact schedOk_of_board htables hqueues hsched ((agentMove_board h).trans (nextStimulus_board hnext))

end Sys2Proof.Machine

/-! SUPPORT and PROOFS of the memory family: the frame operands of the engine (20_memory.md R94, R95), in the bytes of buffer memory
(R92). -/

namespace Sys2Proof.Machine

/-! Frames and their bytes (00_scope.md R16, 20_memory.md R92) -/

theorem bits_div_eight (w : Width) : w.bits / 8 = bpf w := by cases w <;> rfl

theorem pow_bpf (w : Width) : 256 ^ bpf w = 2 ^ w.bits := by cases w <;> rfl

theorem bpf_le_four (w : Width) : bpf w ≤ 4 := by cases w <;> decide

theorem memRead_lt (m : Memory) (a n : Nat) : memRead m a n < 256 ^ n := by
  induction n generalizing a with
  | zero => exact Nat.one_pos
  | succ n ih =>
    have hlow : (readByte m a).toNat < 256 := (readByte m a).isLt
    have hhigh := ih (a + 1)
    rw [memRead, Nat.pow_succ]
    omega

/-- A load of at most four bytes inside the address space loses none of them. -/
theorem loadBytes_inside {m : Memory} {a n : Nat} (hn : n ≤ 4) (ha : a + n ≤ addressCount) :
    ∃ d : Word, loadBytes m a n = .ok d ∧ d.toNat = memRead m a n := by
  have hfits : memRead m a n < 2 ^ 32 := (memRead_lt m a n).trans_le (Nat.pow_le_pow_right (by decide : 0 < 256) hn)
  exact ⟨_, if_pos ha, (BitVec.toNat_ofNat _ _).trans (Nat.mod_eq_of_lt hfits)⟩

theorem storeBytes_inside {m : Memory} {a n : Nat} {v : Word} (ha : a + n ≤ addressCount) :
    storeBytes m a n v = .ok (memWrite m a n v.toNat) :=
  if_pos ha

/-- A value cut to a width is read back whole from a frame of that width. -/
theorem memRead_memWrite_truncW {m : Memory} (hm : Memory.wf m = true) (a : Nat) (w : Width) (v : Word) :
    memRead (memWrite m a (bpf w) (truncW w v).toNat) a (bpf w) = v.toNat % 2 ^ w.bits := by
  rw [memRead_memWrite_same hm, truncW_toNat, pow_bpf, Nat.mod_mod]

/-! `TxFrameValue`, case by case (R94) -/

section
variable {s : State} {c i : Nat} {w : Width} {p : Word}

theorem txFrameValue_default (h : (s.chanAt c).useDefault = true ∨ (s.chanAt c).txPtr = none) :
    txFrameValue s c w i = .ok (truncW w (s.cfg.channelAt c).defaultValue) := by
  unfold txFrameValue
  split
  · rfl
  · obtain huse | hptr := h
    · contradiction
    · rw [hptr]

theorem txFrameValue_load (huse : (s.chanAt c).useDefault = false) (hptr : (s.chanAt c).txPtr = some p)
    (hi : i < (s.chanAt c).length) : txFrameValue s c w i = loadBytes s.mem (frameAddr p w i) (bpf w) := by
  simp [txFrameValue, huse, hptr, hi]

theorem txFrameValue_outside (huse : (s.chanAt c).useDefault = false) (hptr : (s.chanAt c).txPtr = some p)
    (hi : (s.chanAt c).length ≤ i) : txFrameValue s c w i = .error (.fault .outsideBuffer) := by
  simp [txFrameValue, huse, hptr, hi.not_gt]

/-! `RxStoreFrame`, case by case (R95) -/

variable {v : Word}

theorem rxStoreFrame_dropped (h : (s.chanAt c).discardRx = true ∨ (s.chanAt c).rxPtr = none) :
    rxStoreFrame s c w i v = .ok s := by
  unfold rxStoreFrame
  split
  · rfl
  · obtain hdiscard | hptr := h
    · contradiction
    · rw [hptr]

theorem rxStoreFrame_outside (hdiscard : (s.chanAt c).discardRx = false) (hptr : (s.chanAt c).rxPtr = some p)
    (hi : (s.chanAt c).length ≤ i) : rxStoreFrame s c w i v = .error (.fault .outsideBuffer) := by
  simp [rxStoreFrame, hdiscard, hptr, hi.not_gt]

theorem rxStoreFrame_stored (hdiscard : (s.chanAt c).discardRx = false) (hptr : (s.chanAt c).rxPtr = some p)
    (hi : i < (s.chanAt c).length) (ha : frameAddr p w i + bpf w ≤ addressCount) :
    rxStoreFrame s c w i v = .ok (s.setMem (memWrite s.mem (frameAddr p w i) (bpf w) (truncW w v).toNat)) := by
  simp [rxStoreFrame, hdiscard, hptr, hi, storeBytes_inside ha]

/-- The store of a frame cut to the channel's width is the one R95 asks for. -/
theorem storesFrame_memWrite (hdiscard : (s.chanAt c).discardRx = false) (hptr : (s.chanAt c).rxPtr = some p)
    (hm : s.memOk = true) :
    s.storesFrame (memWrite s.mem (frameAddr p (s.widthOf c) i) (bpf (s.widthOf c)) (truncW (s.widthOf c) v).toNat) c i v := by
  refine ⟨fun q _ hq => ?stored, fun x hx => ?others⟩
  case stored =>
    obtain rfl : p = q := Option.some.inj (hptr.symm.trans hq)
    exact memRead_memWrite_truncW hm _ _ _
  case others => exact readByte_memWrite_outside (hx p hdiscard hptr)

end

/-- Settles O60: frame `i` of a channel with a pointer is a load or store of `bpf` bytes, which holds the width exactly. -/
theorem frameOperands : Obligations.FrameOperands := by
  unfold Obligations.FrameOperands
  intro s c i v
  refine ⟨fun hdefault => ?default, fun p huse hptr => ⟨txFrameValue_outside huse hptr, fun hi ha => ?load⟩,
    rxStoreFrame_dropped, fun p hdiscard hptr => ⟨rxStoreFrame_outside hdiscard hptr, fun hi hm ha => ?store⟩⟩
  case default => exact ⟨_, txFrameValue_default hdefault, truncW_toNat _ _⟩
  case load =>
    rw [txFrameValue_load huse hptr hi, bits_div_eight]
    exact loadBytes_inside (bpf_le_four _) ha
  case store => exact ⟨_, rxStoreFrame_stored hdiscard hptr hi ha, storesFrame_memWrite hdiscard hptr hm⟩

end Sys2Proof.Machine

/-! SUPPORT and PROOFS of the encoding family: the decoder, shape by shape of a command word (30_encoding.md R131, R136), the words it
rejects (R145, R146; 00_scope.md R8), and the step at which a word stands at its port (R131, R140). -/

namespace Sys2Proof.Machine

/-! The fields of a command word (R131) -/

/-- A command word is its fields: with `Z` zero there is nothing else in it. -/
theorem eq_commandWord {cmd : Word} (hz : zField cmd = 0) : cmd = commandWord (opField cmd) (modeField cmd) (idField cmd) := by
  have hz' := congrArg BitVec.toNat hz
  apply BitVec.eq_of_toNat_eq
  rw [Laws.commandWord_toNat]
  simp only [opField, zField, modeField, idField, BitVec.extractLsb'_toNat, Nat.shiftRight_eq_div_pow, BitVec.ofNat_eq_ofNat,
    BitVec.toNat_ofNat] at hz' ⊢
  omega

theorem commandWord_of_fields {cmd : Word} {op : Nat} {mode : BitVec 1} {id : BitVec 16} (hz : zField cmd = 0)
    (hop : (opField cmd).toNat = op) (hmode : modeField cmd = mode) (hid : idField cmd = id) :
    commandWord (BitVec.ofNat 8 op) mode id = cmd := by
  subst hop hmode hid
  rw [BitVec.ofNat_toNat, BitVec.setWidth_eq]
  exact (eq_commandWord hz).symm

/-- A field that a row's mask covers is the one of its match (R136). -/
theorem extractLsb'_of_match {cmd mask m : Word} {lo n : Nat} (h : cmd &&& mask = m)
    (hmask : mask.extractLsb' lo n = BitVec.allOnes n) : cmd.extractLsb' lo n = m.extractLsb' lo n := by
  rw [← h, BitVec.extractLsb'_and, hmask, BitVec.and_allOnes]

theorem setWidth_eq_idField (cmd : Word) : cmd.setWidth 16 = idField cmd :=
  BitVec.setWidth_eq_extractLsb' (by decide)

theorem modeOfBit_modeField (cmd : Word) :
    modeOfBit (modeField cmd) = if cmd.getLsbD 16 = true then .interrupt else .polling := by
  have hbit : modeField cmd = 1#1 ↔ cmd.getLsbD 16 = true := by
    simp [modeField, BitVec.eq_of_getLsbD_eq_iff]
  simp only [modeOfBit, hbit]

theorem modeBit_modeOfBit (b : BitVec 1) : modeBit (modeOfBit b) = b := by
  revert b
  decide

/-! The decoder, shape by shape (R131, R140) -/

theorem withNone_eq_ok {cmd : Word} {i j : Instr} : withNone cmd i = .ok j ↔ modeField cmd = 0 ∧ idField cmd = 0 ∧ i = j := by
  unfold withNone
  split
  · split <;> simp_all
  · simp_all

theorem withId_eq_ok {cmd : Word} {f : BitVec 16 → Instr} {j : Instr} :
    withId cmd f = .ok j ↔ modeField cmd = 0 ∧ f (idField cmd) = j := by
  unfold withId
  split <;> simp_all

theorem withMode_eq_ok {cmd : Word} {f : Mode → Instr} {j : Instr} :
    withMode cmd f = .ok j ↔ idField cmd = 0 ∧ f (modeOfBit (modeField cmd)) = j := by
  unfold withMode
  split <;> simp_all

theorem decode_command_eq_ok {cmd a0 a1 a2 : Word} {i : Instr} :
    decode (.command cmd a0 a1 a2) = .ok i ↔ zField cmd = 0 ∧ decodeOp cmd a0 a1 a2 = .ok i := by
  show decodeCommand cmd a0 a1 a2 = _ ↔ _
  unfold decodeCommand
  split <;> simp_all

theorem decode_event_eq_ok {evt : Byte} {i : Instr} : decode (.event evt) = .ok i ↔ (unitField evt).toNat < 13 ∧
    (kindField evt = 1 ∧ .evFifo (unitField evt) = i ∨ kindField evt = 2 ∧ .evDmaTx (unitField evt) = i ∨
      kindField evt = 3 ∧ .evDmaRx (unitField evt) = i) := by
  show decodeEvent evt = _ ↔ _
  unfold decodeEvent
  simp only [← BitVec.toNat_inj]
  split
  · split <;> simp_all
  · simp_all

/-- Settles O1: each row of the decoder asks of the fields what the encoder wrote into them. -/
theorem decodeAfterEncode : Obligations.DecodeAfterEncode := by
  unfold Obligations.DecodeAfterEncode
  intro i hwf
  cases i with
  | init | deinit | getStatus | mainFunctionHandling =>
    rw [encode, decode_command_eq_ok, decodeOp, Laws.opField_commandWord]
    exact ⟨Laws.zField_commandWord .., withNone_eq_ok.mpr ⟨Laws.modeField_commandWord .., Laws.idField_commandWord .., rfl⟩⟩
  | writeIb | readIb | setupEb | syncTransmit | asyncTransmit | cancel | getJobResult | getSeqResult | getHwunitStatus =>
    rw [encode, decode_command_eq_ok, decodeOp, Laws.opField_commandWord]
    exact ⟨Laws.zField_commandWord .., withId_eq_ok.mpr ⟨Laws.modeField_commandWord .., by rw [Laws.idField_commandWord]⟩⟩
  | setAsyncMode m =>
    rw [encode, decode_command_eq_ok, decodeOp, Laws.opField_commandWord]
    exact ⟨Laws.zField_commandWord .., withMode_eq_ok.mpr ⟨Laws.idField_commandWord .., by simp⟩⟩
  | setHwunitAsyncMode u m =>
    rw [encode, decode_command_eq_ok, decodeOp, Laws.opField_commandWord]
    exact ⟨Laws.zField_commandWord .., by simp⟩
  | evFifo | evDmaTx | evDmaRx =>
    rw [encode, decode_event_eq_ok, Laws.kindField_eventWord, Laws.unitField_eventWord]
    exact ⟨of_decide_eq_true hwf, by simp⟩

/-- Settles O2: the mask covers the fields that the row reads as constants, and leaves its operands open. -/
theorem opcodeMapDecodes : Obligations.OpcodeMapDecodes := by
  unfold Obligations.OpcodeMapDecodes
  intro cmd a0 a1 a2
  refine ⟨?init, ?deinit, ?writeIb, ?readIb, ?setupEb, ?syncTransmit, ?asyncTransmit, ?cancel, ?getJobResult, ?getSeqResult,
    ?getStatus, ?getHwunitStatus, ?setAsyncMode, ?setHwunitAsyncMode, ?mainFunctionHandling⟩
  all_goals
    intro h
    rw [decode_command_eq_ok, decodeOp, show opField cmd = _ from extractLsb'_of_match h rfl]
    refine ⟨extractLsb'_of_match h rfl, ?_⟩
  case init | deinit | getStatus | mainFunctionHandling =>
    exact withNone_eq_ok.mpr ⟨extractLsb'_of_match h rfl, extractLsb'_of_match h rfl, rfl⟩
  case writeIb | readIb | setupEb | syncTransmit | asyncTransmit | cancel | getJobResult | getSeqResult | getHwunitStatus =>
    rw [setWidth_eq_idField]
    exact withId_eq_ok.mpr ⟨extractLsb'_of_match h rfl, rfl⟩
  case setAsyncMode =>
    rw [← modeOfBit_modeField]
    exact withMode_eq_ok.mpr ⟨extractLsb'_of_match h rfl, rfl⟩
  case setHwunitAsyncMode =>
    rw [setWidth_eq_idField, ← modeOfBit_modeField]
    rfl

/-- The command word of an instruction is the only one that decodes to it, whatever stands in unused operand words. -/
theorem encode_of_decode {cmd a0 a1 a2 : Word} {i : Instr} (h : decode (.command cmd a0 a1 a2) = .ok i) :
    ∃ b0 b1 b2, encode i = .command cmd b0 b1 b2 := by
  obtain ⟨hz, hrow⟩ := decode_command_eq_ok.mp h
  unfold decodeOp at hrow
  split at hrow <;> rename_i hop
  -- the rows by the operands that their command word carries: none, an id, a mode, both
  case h_1 | h_2 | h_11 | h_15 =>
    obtain ⟨hmode, hid, rfl⟩ := withNone_eq_ok.mp hrow
    exact ⟨_, _, _, congrArg (PortWords.command · _ _ _) (commandWord_of_fields hz hop hmode hid)⟩
  case h_3 | h_4 | h_5 | h_6 | h_7 | h_8 | h_9 | h_10 | h_12 =>
    obtain ⟨hmode, rfl⟩ := withId_eq_ok.mp hrow
    exact ⟨_, _, _, congrArg (PortWords.command · _ _ _) (commandWord_of_fields hz hop hmode rfl)⟩
  case h_13 =>
    obtain ⟨hid, rfl⟩ := withMode_eq_ok.mp hrow
    exact ⟨_, _, _, congrArg (PortWords.command · _ _ _) (commandWord_of_fields hz hop (modeBit_modeOfBit _).symm hid)⟩
  case h_14 =>
    cases hrow
    exact ⟨_, _, _, congrArg (PortWords.command · _ _ _) (commandWord_of_fields hz hop (modeBit_modeOfBit _).symm rfl)⟩
  case h_16 => cases hrow

/-! Reserved words (R145, R146) and commands that the built variant lacks (00_scope.md R8) -/

/-- Why a command word is reserved, in the variant that is built: a clause for each way. -/
def ReservedIn (p : Params) (cmd : Word) : Prop :=
  opField cmd = 0x00 ∨ 0x10 ≤ (opField cmd).toNat ∨ zField cmd ≠ 0 ∨
    (modeField cmd ≠ 0 ∧ opField cmd ≠ 0x0D ∧ opField cmd ≠ 0x0E) ∨
    (idField cmd ≠ 0 ∧
      (opField cmd = 0x01 ∨ opField cmd = 0x02 ∨ opField cmd = 0x0B ∨ opField cmd = 0x0D ∨ opField cmd = 0x0F)) ∨
    (p.level = .syncOnly ∧
      (opField cmd = 0x07 ∨ opField cmd = 0x08 ∨ opField cmd = 0x0D ∨ opField cmd = 0x0E ∨ opField cmd = 0x0F)) ∨
    (p.level = .asyncOnly ∧ opField cmd = 0x06)

/-- The instructions that are commands the built variant lacks (R8). -/
def LacksCommand (p : Params) : Instr → Prop
  | .syncTransmit _ => p.level = .asyncOnly
  | .asyncTransmit _ | .cancel _ | .setAsyncMode _ | .setHwunitAsyncMode _ _ | .mainFunctionHandling => p.level = .syncOnly
  | _ => False

/-- The command word of an instruction is reserved only where the variant lacks the command. -/
theorem lacksCommand_of_reservedIn {p : Params} {cmd b0 b1 b2 : Word} {i : Instr} (hword : encode i = .command cmd b0 b1 b2)
    (hreserved : ReservedIn p cmd) : LacksCommand p i := by
  unfold ReservedIn at hreserved
  cases i with
  | evFifo | evDmaTx | evDmaRx => cases hword
  | syncTransmit =>
    obtain ⟨hcmd, -⟩ := PortWords.command.inj hword
    show p.level = .asyncOnly
    simpa [← hcmd] using hreserved
  | asyncTransmit | cancel | setAsyncMode | setHwunitAsyncMode | mainFunctionHandling =>
    obtain ⟨hcmd, -⟩ := PortWords.command.inj hword
    show p.level = .syncOnly
    simpa [← hcmd] using hreserved
  | _ =>
    obtain ⟨hcmd, -⟩ := PortWords.command.inj hword
    simp [← hcmd] at hreserved

theorem hasAsync_of_syncOnly {s : State} (h : s.params.level = .syncOnly) : s.hasAsync = false := by simp [State.hasAsync, h]

theorem hasSync_of_asyncOnly {s : State} (h : s.params.level = .asyncOnly) : s.hasSync = false := by simp [State.hasSync, h]

/-- A command that the variant lacks is answered as a reserved word. -/
theorem exec_of_lacksCommand {s : State} {i : Instr} {cmd b0 b1 b2 : Word} (hlacks : LacksCommand s.params i)
    (hword : encode i = .command cmd b0 b1 b2) : exec i s = .next (reservedCommand (opField cmd) s) := by
  rw [exec_eq_runInstr, outcome_eq_next]
  cases i with
  | syncTransmit =>
    obtain ⟨hcmd, -⟩ := PortWords.command.inj hword
    rw [← hcmd, Laws.opField_commandWord]
    exact if_pos (hasSync_of_asyncOnly hlacks)
  | asyncTransmit | cancel | setAsyncMode | setHwunitAsyncMode | mainFunctionHandling =>
    obtain ⟨hcmd, -⟩ := PortWords.command.inj hword
    rw [← hcmd, Laws.opField_commandWord]
    exact if_pos (hasAsync_of_syncOnly hlacks)
  | _ => exact hlacks.elim

theorem reservedCommand_eq_says (op : Byte) (s : State) : reservedCommand op s = s.says (s.errors op .reservedCmd) 1 := by
  simp only [reservedCommand, fail, raise, respond, State.emit, State.says, State.errors, eNotOk]
  split <;> simp

theorem not_decode_event {evt : Byte} (h : kindField evt = 0 ∨ 4 ≤ (kindField evt).toNat ∨ 13 ≤ (unitField evt).toNat)
    (i : Instr) : decode (.event evt) ≠ .ok i := by
  rw [Ne, decode_event_eq_ok]
  rintro ⟨hunit, ⟨hkind, -⟩ | ⟨hkind, -⟩ | ⟨hkind, -⟩⟩ <;> simp [hkind] at h <;> omega

/-! A step at which a word stands at its port (R131, R140) -/

theorem step_of_decode {s s' : State} {p : PortWords} {i : Instr} (hnext : nextStimulus s = some (.port p, s'))
    (h : decode p = .ok i) : step s = exec i (s'.takeWord p) := by
  simp only [step, hnext, h]

theorem step_of_not_decode {s s' : State} {p : PortWords} (hnext : nextStimulus s = some (.port p, s'))
    (h : ∀ i, decode p ≠ .ok i) : step s = .next (reservedWord p (s'.takeWord p)) := by
  cases hdecode : decode p with
  | ok i => exact absurd hdecode (h i)
  | error e => simp only [step, hnext, hdecode]

theorem nextStimulus_present (s : State) (x : Stimulus) : nextStimulus (s.present x) = some (x, s) := rfl

/-- A reserved command word is answered in the same way whether the decoder rejects it or its procedure is not built in. -/
theorem step_of_reservedIn {s s' : State} {cmd a0 a1 a2 : Word} (hnext : nextStimulus s = some (.port (.command cmd a0 a1 a2), s'))
    (h : ReservedIn s'.params cmd) : step s = .next (reservedCommand (opField cmd) s') := by
  by_cases hdecode : ∃ i, decode (.command cmd a0 a1 a2) = .ok i
  · obtain ⟨i, hi⟩ := hdecode
    obtain ⟨b0, b1, b2, hword⟩ := encode_of_decode hi
    rw [step_of_decode hnext hi]
    exact exec_of_lacksCommand (lacksCommand_of_reservedIn hword h) hword
  · exact step_of_not_decode hnext (not_exists.mp hdecode)

/-- Settles O5: a reserved command word ends in `reservedCommand`, a reserved event word in its being taken alone. -/
theorem reservedWords : Obligations.ReservedWords := by
  unfold Obligations.ReservedWords
  refine ⟨fun s s' cmd a0 a1 a2 hnext h => ?command, fun s s' evt hnext h => ?event⟩
  case command => rw [← reservedCommand_eq_says]; exact step_of_reservedIn hnext h
  case event => exact step_of_not_decode hnext (not_decode_event h)

/-- Settles O4: both clauses are `step_of_decode`; a presented word is the next stimulus, and only an event leaves a mark to take. -/
theorem stepRunsTheDecodedInstruction : Obligations.StepRunsTheDecodedInstruction := by
  unfold Obligations.StepRunsTheDecodedInstruction
  refine ⟨fun s s' p i => step_of_decode, fun s nbits w p i hp h => ?presented, fun _ _ _ _ _ => rfl, fun _ _ => rfl⟩
  case presented =>
    have hword : s.withFetchWord nbits w = s.present (.port p) := by simp only [State.withFetchWord, hp]
    rw [hword]
    exact step_of_decode (nextStimulus_present s _) h

/-- Settles O3: the words are evaluated. -/
theorem wordsOfTheSpecDecode : Obligations.WordsOfTheSpecDecode := by
  unfold Obligations.WordsOfTheSpecDecode
  decide

end Sys2Proof.Machine

/-! SUPPORT and PROOFS of the life-cycle family, the buffers: the buffer commands and the queries, check by check
(40_lifecycle_buffers_queries.md R176 to R188), and the frame-by-frame copy in the bytes of buffer memory (20_memory.md R92, R99). -/

namespace Sys2Proof.Machine

/-! Commands that only report and respond (60_exceptions.md R390, R391) -/

theorem respond_eq_says (v : Word) (s : State) : respond v s = s.says [] v := by
  simp [respond, State.emit, State.says]

theorem fail_eq_says (op : Byte) (e : ErrName) (v : Word) (s : State) : fail op e v s = s.says (s.errors op e) v := by
  simp only [fail, raise, respond, State.emit, State.says, State.errors]
  split <;> simp

/-! The driver status (40_lifecycle_buffers_queries.md R186) -/

section
variable {s : State}

theorem anyUnitBusy_iff : s.anyUnitBusy = true ↔ ∃ u, u < s.cfg.numUnits ∧ (s.unitAt u).status = .busy := by
  simp [State.anyUnitBusy]

theorem driverStatus_uninit (hoff : s.drvInit = false) : s.driverStatus = .uninit := by simp [State.driverStatus, hoff]

theorem driverStatus_busy (hon : s.drvInit = true)
    (hbusy : s.syncBusyMask ≠ 0 ∨ ∃ u, u < s.cfg.numUnits ∧ (s.unitAt u).status = .busy) : s.driverStatus = .busy := by
  rw [State.driverStatus, if_pos hon, if_pos (hbusy.imp_right anyUnitBusy_iff.2)]

theorem driverStatus_idle (hon : s.drvInit = true) (hmask : s.syncBusyMask = 0)
    (hunits : ∀ u, u < s.cfg.numUnits → (s.unitAt u).status ≠ .busy) : s.driverStatus = .idle := by
  have hnone : ¬ (s.syncBusyMask ≠ 0 ∨ s.anyUnitBusy = true) := by
    rintro (hne | hany)
    · exact hne hmask
    · obtain ⟨u, hu, hst⟩ := anyUnitBusy_iff.1 hany
      exact hunits u hu hst
  rw [State.driverStatus, if_pos hon, if_neg hnone]

end

/-! The queries (R184 to R188) -/

section
variable {s : State}

theorem cmdGetJobResult_uninit (j : Nat) (hoff : s.drvInit = false) :
    cmdGetJobResult j s = .ok (s.says (s.errors 0x09 .uninit) 2) := by
  rw [cmdGetJobResult, if_pos hoff, fail_eq_says]; rfl

theorem cmdGetSeqResult_uninit (q : Nat) (hoff : s.drvInit = false) :
    cmdGetSeqResult q s = .ok (s.says (s.errors 0x0A .uninit) 2) := by
  rw [cmdGetSeqResult, if_pos hoff, fail_eq_says]; rfl

theorem cmdGetStatus_answer (s : State) : cmdGetStatus s = .ok (s.says [] (statusCode s.driverStatus)) := by
  rw [cmdGetStatus, respond_eq_says]

variable (hon : s.drvInit = true)
include hon

theorem cmdGetJobResult_outOfRange {j : Nat} (hj : s.cfg.numJobs ≤ j) :
    cmdGetJobResult j s = .ok (s.says (s.errors 0x09 .paramJob) 2) := by
  simp [cmdGetJobResult, hon, State.jobInRange, hj, fail_eq_says, jobResultCode]

theorem cmdGetJobResult_answer {j : Nat} (hj : j < s.cfg.numJobs) :
    cmdGetJobResult j s = .ok (s.says [] (jobResultCode (s.jobAt j).result)) := by
  simp [cmdGetJobResult, hon, State.jobInRange, hj, respond_eq_says]

theorem cmdGetSeqResult_outOfRange {q : Nat} (hq : s.cfg.numSeqs ≤ q) :
    cmdGetSeqResult q s = .ok (s.says (s.errors 0x0A .paramSeq) 2) := by
  simp [cmdGetSeqResult, hon, State.seqInRange, hq, fail_eq_says, seqResultCode]

theorem cmdGetSeqResult_answer {q : Nat} (hq : q < s.cfg.numSeqs) :
    cmdGetSeqResult q s = .ok (s.says [] (seqResultCode (s.seqAt q).result)) := by
  simp [cmdGetSeqResult, hon, State.seqInRange, hq, respond_eq_says]

theorem cmdGetHwunitStatus_claimed {u : Nat} (hu : u < s.cfg.numUnits) (hclaimed : s.syncBusyMask.getLsbD u = true) :
    cmdGetHwunitStatus u s = .ok (s.says [] 2) := by
  simp [cmdGetHwunitStatus, hon, State.unitInRange, hu, State.syncBusy, hclaimed, respond_eq_says, statusCode]

theorem cmdGetHwunitStatus_answer {u : Nat} (hu : u < s.cfg.numUnits) (hfree : s.syncBusyMask.getLsbD u = false) :
    cmdGetHwunitStatus u s = .ok (s.says [] (statusCode (s.unitAt u).status)) := by
  simp [cmdGetHwunitStatus, hon, State.unitInRange, hu, State.syncBusy, hfree, respond_eq_says]

end

/-- Settles O27: each case is the answer of the command's equation for it. -/
theorem resultQueriesAnswer : Obligations.ResultQueriesAnswer := by
  unfold Obligations.ResultQueriesAnswer
  refine fun s k => ⟨fun hoff => ⟨congrArg outcome (cmdGetJobResult_uninit _ hoff), congrArg outcome (cmdGetSeqResult_uninit _ hoff)⟩,
    fun hon => ⟨fun hj => congrArg outcome (cmdGetJobResult_outOfRange hon hj), fun hj => ?jobResult,
      fun hq => congrArg outcome (cmdGetSeqResult_outOfRange hon hq), fun hq => ?seqResult⟩⟩
  case jobResult =>
    rw [show exec (.getJobResult k) s = _ from congrArg outcome (cmdGetJobResult_answer hon hj)]
    cases (s.jobAt k.toNat).result <;> rfl
  case seqResult =>
    rw [show exec (.getSeqResult k) s = _ from congrArg outcome (cmdGetSeqResult_answer hon hq)]
    cases (s.seqAt k.toNat).result <;> rfl

theorem exec_getStatus (s : State) : exec .getStatus s = .next (s.says [] (statusCode s.driverStatus)) :=
  congrArg outcome (cmdGetStatus_answer s)

/-- Settles O28: a claimed unit is `BUSY` before its own status is looked at; the driver's status is `driverStatus`, case by case. -/
theorem statusQueriesAnswer : Obligations.StatusQueriesAnswer := by
  unfold Obligations.StatusQueriesAnswer
  refine fun s k => ⟨fun hon hu =>
      ⟨fun hclaimed => congrArg outcome (cmdGetHwunitStatus_claimed hon hu hclaimed), fun hfree => ?unit⟩,
    fun hoff => ?uninit, fun hon => ⟨fun hbusy => ?busy, fun hmask hunits => ?idle⟩⟩
  case unit =>
    rw [show exec (.getHwunitStatus k) s = _ from congrArg outcome (cmdGetHwunitStatus_answer hon hu hfree)]
    cases (s.unitAt k.toNat).status <;> rfl
  case uninit => rw [exec_getStatus, driverStatus_uninit hoff]; rfl
  case busy => rw [exec_getStatus, driverStatus_busy hon hbusy]; rfl
  case idle => rw [exec_getStatus, driverStatus_idle hon hmask hunits]; rfl

/-! The buffer commands, check by check (R176, R178, R180, R182) -/

section
variable {s : State} {c : Nat}

/-- An active channel is one of a locked or `PENDING` job. -/
theorem channelActive_iff : s.channelActive c = true ↔ ∃ j, j < s.cfg.numJobs ∧ c ∈ (s.cfg.jobAt j).channels ∧
    ((s.jobAt j).owner ≠ none ∨ (s.jobAt j).result = .pending) := by
  simp [State.channelActive, Option.isSome_iff_ne_none]

theorem aligned_iff {a : Word} {w : Width} : aligned a w = true ↔ a.toNat % bpf w = 0 := decide_eq_true_iff

theorem nullOrAligned_iff {a : Word} {w : Width} : nullOrAligned a w = true ↔ a = 0 ∨ a.toNat % bpf w = 0 := by
  simp [nullOrAligned, aligned_iff]

theorem lengthOk_iff {a : Word} {n : Nat} : lengthOk a n = true ↔ 0 < a.toNat ∧ a.toNat ≤ n := by
  simp [lengthOk]

theorem rangesOverlap_iff {a m b n : Nat} : rangesOverlap a m b n = true ↔ a < b + n ∧ b < a + m ∧ 0 < m ∧ 0 < n := by
  simp [rangesOverlap]

variable (hon : s.drvInit = true) (hc : c < s.cfg.numChannels) (a0 a1 a2 : Word)
include hon hc

theorem cmdWriteIb_external (hkind : (s.cfg.channelAt c).bufKind = .eb) :
    cmdWriteIb c a0 s = .ok (s.says (s.errors 0x03 .paramChannel) 1) := by
  simp [cmdWriteIb, hon, State.chanInRange, hc, hkind, fail_eq_says, eNotOk]

theorem cmdReadIb_external (hkind : (s.cfg.channelAt c).bufKind = .eb) :
    cmdReadIb c a0 s = .ok (s.says (s.errors 0x04 .paramChannel) 1) := by
  simp [cmdReadIb, hon, State.chanInRange, hc, hkind, fail_eq_says, eNotOk]

theorem cmdSetupEb_internal (hkind : (s.cfg.channelAt c).bufKind = .ib) :
    cmdSetupEb c a0 a1 a2 s = .ok (s.says (s.errors 0x05 .paramChannel) 1) := by
  simp [cmdSetupEb, hon, State.chanInRange, hc, hkind, fail_eq_says, eNotOk]

section
variable (hkind : (s.cfg.channelAt c).bufKind = .ib)
include hkind

theorem cmdWriteIb_active (hactive : s.channelActive c = true) : cmdWriteIb c a0 s = .ok (s.says [] 1) := by
  simp [cmdWriteIb, hon, State.chanInRange, hc, hkind, hactive, respond_eq_says, eNotOk]

theorem cmdWriteIb_null (hactive : s.channelActive c = false) :
    cmdWriteIb c 0 s = .ok ((s.setChan c { s.chanAt c with useDefault := true }).says [] 0) := by
  simp [cmdWriteIb, hon, State.chanInRange, hc, hkind, hactive, respond_eq_says, eOk]

variable {a0}

theorem cmdWriteIb_misaligned (hactive : s.channelActive c = false) (hne : a0 ≠ 0) (ha : a0.toNat % bpf (s.widthOf c) ≠ 0) :
    cmdWriteIb c a0 s = .ok (s.says (s.errors 0x03 .paramPointer) 1) := by
  simp [cmdWriteIb, hon, State.chanInRange, hc, hkind, hactive, show a0 ≠ 0#32 from hne, aligned, ha, fail_eq_says, eNotOk]

/-- A source that passes every check of `WRITE_IB` is left to the copy. -/
theorem cmdWriteIb_fill (hactive : s.channelActive c = false) (hne : a0 ≠ 0) (ha : a0.toNat % bpf (s.widthOf c) = 0) :
    cmdWriteIb c a0 s = fillInternal c a0 s >>= fun t => .ok (t.says [] 0) := by
  simp [cmdWriteIb, hon, State.chanInRange, hc, hkind, hactive, show a0 ≠ 0#32 from hne, aligned, ha, respond_eq_says, eOk]

theorem cmdReadIb_badPointer (ha : a0 = 0 ∨ a0.toNat % bpf (s.widthOf c) ≠ 0) :
    cmdReadIb c a0 s = .ok (s.says (s.errors 0x04 .paramPointer) 1) := by
  have hbad : a0 = 0 ∨ aligned a0 (s.widthOf c) = false := ha.imp_right decide_eq_false
  rw [cmdReadIb, if_neg (by simp [hon]), if_neg (by simp [State.chanInRange, hc]), if_neg (not_not.2 hkind), if_pos hbad, fail_eq_says]
  rfl

theorem cmdReadIb_copy {m : Memory} (hne : a0 ≠ 0) (ha : a0.toNat % bpf (s.widthOf c) = 0)
    (hcopy : copyFrames s.mem (bpf (s.widthOf c)) (s.chanAt c).length (s.cfg.channelAt c).ibRxAddr.toNat a0.toNat = .ok m) :
    cmdReadIb c a0 s = .ok ((s.setMem m).says [] 0) := by
  simp [cmdReadIb, hon, State.chanInRange, hc, hkind, show a0 ≠ 0#32 from hne, aligned, ha, hcopy, respond_eq_says, eOk]

end

section
variable {a0 a1 a2} (hkind : (s.cfg.channelAt c).bufKind = .eb)
include hkind

theorem cmdSetupEb_badLength (hlen : lengthOk a2 (s.cfg.channelAt c).maxLength = false) :
    cmdSetupEb c a0 a1 a2 s = .ok (s.says (s.errors 0x05 .paramLength) 1) := by
  simp [cmdSetupEb, hon, State.chanInRange, hc, hkind, hlen, fail_eq_says, eNotOk]

variable (hlen : lengthOk a2 (s.cfg.channelAt c).maxLength = true)
include hlen

theorem cmdSetupEb_badPointer (hptr : (nullOrAligned a0 (s.widthOf c) && nullOrAligned a1 (s.widthOf c)) = false) :
    cmdSetupEb c a0 a1 a2 s = .ok (s.says (s.errors 0x05 .paramPointer) 1) := by
  rw [cmdSetupEb, if_neg (by simp [hon]), if_neg (by simp [State.chanInRange, hc]), if_neg (not_not.2 hkind),
    if_neg (by simp [hlen]), if_pos hptr, fail_eq_says]
  rfl

variable (h0 : nullOrAligned a0 (s.widthOf c) = true) (h1 : nullOrAligned a1 (s.widthOf c) = true)
include h0 h1

theorem cmdSetupEb_active (hactive : s.channelActive c = true) : cmdSetupEb c a0 a1 a2 s = .ok (s.says [] 1) := by
  simp [cmdSetupEb, hon, State.chanInRange, hc, hkind, hlen, h0, h1, hactive, respond_eq_says, eNotOk]

theorem cmdSetupEb_accepted (hactive : s.channelActive c = false) :
    cmdSetupEb c a0 a1 a2 s = .ok ((s.setChan c (externalBuffers a0 a1 a2)).says [] 0) := by
  simp [cmdSetupEb, hon, State.chanInRange, hc, hkind, hlen, h0, h1, hactive, respond_eq_says, eOk]

end

end

/-- The five fields of `ChanState[c]` that R180 names are all there are. -/
theorem eq_externalBuffers {a0 a1 a2 : Word} {ch : ChanState} (htx : ch.txPtr = if a0 = 0 then none else some a0)
    (huse : ch.useDefault = decide (a0 = 0)) (hrx : ch.rxPtr = if a1 = 0 then none else some a1)
    (hdiscard : ch.discardRx = decide (a1 = 0)) (hlen : ch.length = a2.toNat) : ch = externalBuffers a0 a1 a2 := by
  cases ch
  subst htx huse hrx hdiscard hlen
  rfl

/-- Settles O22: an active channel is refused at the check that comes after those of the operands. -/
theorem activeChannelsAreRefused : Obligations.ActiveChannelsAreRefused := by
  unfold Obligations.ActiveChannelsAreRefused
  refine fun s k a0 a1 a2 => ⟨channelActive_iff, fun hon hc hactive =>
    ⟨fun hkind => ?writeIb, fun hkind hpos hmax h0 h1 => ?setupEb⟩⟩
  case writeIb => exact congrArg outcome (cmdWriteIb_active hon hc a0 hkind hactive)
  case setupEb =>
    exact congrArg outcome (cmdSetupEb_active hon hc hkind (lengthOk_iff.2 ⟨hpos, hmax⟩) (nullOrAligned_iff.2 h0)
      (nullOrAligned_iff.2 h1) hactive)

/-- Settles O26: each case is the answer of the command's equation for the check that decides it. -/
theorem setupEbCases : Obligations.SetupEbCases := by
  unfold Obligations.SetupEbCases
  refine fun s k a0 a1 a2 hon hc => ⟨fun hkind => congrArg outcome (cmdSetupEb_internal hon hc a0 a1 a2 hkind),
    fun hkind => ⟨fun hlen => ?length, fun hne hmax => ?_⟩⟩
  case length =>
    have hbad : lengthOk a2 (s.cfg.channelAt k.toNat).maxLength = false := by
      rw [← Bool.not_eq_true, lengthOk_iff]
      rintro ⟨hpos, hmax⟩
      obtain rfl | hlt := hlen
      · exact absurd hpos (by decide)
      · omega
    exact congrArg outcome (cmdSetupEb_badLength hon hc hkind hbad)
  have hlen : lengthOk a2 (s.cfg.channelAt k.toNat).maxLength = true :=
    lengthOk_iff.2 ⟨Nat.pos_of_ne_zero fun h => hne (BitVec.eq_of_toNat_eq h), hmax⟩
  refine ⟨fun hptr => ?pointer, fun h0 h1 => ?_⟩
  case pointer =>
    have hbad : (nullOrAligned a0 (s.widthOf k.toNat) && nullOrAligned a1 (s.widthOf k.toNat)) = false := by
      rw [← Bool.not_eq_true, Bool.and_eq_true, nullOrAligned_iff, nullOrAligned_iff]
      tauto
    exact congrArg outcome (cmdSetupEb_badPointer hon hc hkind hlen hbad)
  rw [← nullOrAligned_iff] at h0 h1
  refine ⟨fun hactive => congrArg outcome (cmdSetupEb_active hon hc hkind hlen h0 h1 hactive),
    fun hactive ch htx huse hrx hdiscard hl => ?accepted⟩
  case accepted =>
    rw [eq_externalBuffers htx huse hrx hdiscard hl]
    exact congrArg outcome (cmdSetupEb_accepted hon hc hkind hlen h0 h1 hactive)

/-! The frame-by-frame copy (20_memory.md R92, R99) -/

/-- Byte `i` of a value that was loaded is the byte it came from. -/
theorem memRead_byte (m : Memory) {a n i : Nat} (hi : i < n) : BitVec.ofNat 8 (memRead m a n / 256 ^ i) = readByte m (a + i) := by
  induction n generalizing a i with
  | zero => cases hi
  | succ n ih =>
    have hlow : (readByte m a).toNat < 256 := (readByte m a).isLt
    rw [memRead]
    cases i with
    | zero =>
      apply BitVec.eq_of_toNat_eq
      rw [Nat.pow_zero, Nat.div_one, BitVec.toNat_ofNat]
      show _ % 256 = (readByte m a).toNat
      omega
    | succ i =>
      rw [Nat.pow_succ', ← Nat.div_div_eq_div_mul, Nat.add_mul_div_left _ _ (by decide), Nat.div_eq_of_lt hlow, Nat.zero_add,
        ih (Nat.lt_of_succ_lt_succ hi), Nat.add_right_comm, Nat.add_assoc]

theorem loadBytes_toNat {m : Memory} {a n : Nat} {v : Word} (hn : n ≤ 4) (h : loadBytes m a n = .ok v) :
    v.toNat = memRead m a n := by
  by_cases ha : a + n ≤ addressCount
  · obtain ⟨d, hd, hval⟩ := loadBytes_inside (m := m) hn ha
    rw [hd] at h
    cases h; exact hval
  · rw [loadBytes, if_neg ha] at h
    cases h

theorem readByte_storeBytes_inside {m m' : Memory} {a n i : Nat} {v : Word} (hm : Memory.wf m = true)
    (h : storeBytes m a n v = .ok m') (hi : i < n) : readByte m' (a + i) = BitVec.ofNat 8 (v.toNat / 256 ^ i) := by
  unfold storeBytes at h
  split at h <;> cases h
  exact readByte_memWrite_inside hm hi

/-- The first frame of a copy: its bytes are the source's, every other byte stays, and the rest is copied afterwards. -/
theorem copyFrames_firstFrame {m m' : Memory} {b n src dst : Nat} (hb : b ≤ 4) (hm : Memory.wf m = true)
    (h : copyFrames m b (n + 1) src dst = .ok m') :
    ∃ m₁, Memory.wf m₁ = true ∧ (∀ i, i < b → readByte m₁ (dst + i) = readByte m (src + i)) ∧
      (∀ x, x < dst ∨ dst + b ≤ x → readByte m₁ x = readByte m x) ∧ copyFrames m₁ b n (src + b) (dst + b) = .ok m' := by
  simp only [copyFrames] at h
  split at h
  · cases h
  · rename_i v hload
    split at h
    · cases h
    · rename_i m₁ hstore
      refine ⟨m₁, storeBytes_wf hm hstore, fun i hi => ?_, fun x hx => readByte_storeBytes_outside hstore hx, h⟩
      rw [readByte_storeBytes_inside hm hstore hi, loadBytes_toNat hb hload, memRead_byte m hi]

section
variable {m m' : Memory} {b n src dst : Nat} (hb : b ≤ 4)
include hb

/-- An ascending copy that does not run into bytes still to be loaded leaves the source's old bytes at the destination. -/
theorem readByte_copyFrames_old (hm : Memory.wf m = true) (h : copyFrames m b n src dst = .ok m')
    (hapart : dst ≤ src ∨ src + n * b ≤ dst) {i : Nat} (hi : i < n * b) : readByte m' (dst + i) = readByte m (src + i) := by
  induction n generalizing m src dst i with
  | zero => omega
  | succ n ih =>
    rw [Nat.succ_mul] at hi hapart
    obtain ⟨m₁, hm₁, hframe, hother, hrest⟩ := copyFrames_firstFrame hb hm h
    by_cases hib : i < b
    · rw [readByte_copyFrames_outside hrest (.inl (by omega)), hframe i hib]
    · have hstep := ih hm₁ hrest (by omega) (i := i - b) (by omega)
      rw [show dst + b + (i - b) = dst + i by omega, show src + b + (i - b) = src + i by omega] at hstep
      rw [hstep, hother _ (by omega)]

/-- An ascending copy to `k` whole frames above its source repeats the source's first bytes: afterwards source and destination agree. -/
theorem readByte_copyFrames_repeats (hm : Memory.wf m = true) (h : copyFrames m b n src dst = .ok m') {k : Nat}
    (hdst : dst = src + k * b) {i : Nat} (hi : i < n * b) : readByte m' (dst + i) = readByte m' (src + i) := by
  cases k with
  | zero => rw [hdst, Nat.zero_mul, Nat.add_zero]
  | succ k =>
    rw [Nat.succ_mul] at hdst
    induction n generalizing m src dst i with
    | zero => omega
    | succ n ih =>
      rw [Nat.succ_mul] at hi
      obtain ⟨m₁, hm₁, hframe, hother, hrest⟩ := copyFrames_firstFrame hb hm h
      by_cases hib : i < b
      · rw [readByte_copyFrames_outside hrest (.inl (by omega)), readByte_copyFrames_outside hrest (.inl (by omega)), hframe i hib,
          hother _ (by omega)]
      · have hstep := ih hm₁ hrest (by omega) (i := i - b) (by omega)
        rwa [show dst + b + (i - b) = dst + i by omega, show src + b + (i - b) = src + i by omega] at hstep

end

/-- `WRITE_IB` from a source apart from the internal buffer, inside the address space. -/
theorem fillInternal_apart {s : State} {c : Nat} {a0 : Word}
    (hapart : (s.cfg.channelAt c).ibTxAddr.toNat + s.bufBytes c ≤ a0.toNat ∨
      a0.toNat + s.bufBytes c ≤ (s.cfg.channelAt c).ibTxAddr.toNat)
    {m : Memory} (hcopy : copyFrames s.mem (bpf (s.widthOf c)) (s.chanAt c).length a0.toNat (s.cfg.channelAt c).ibTxAddr.toNat = .ok m) :
    fillInternal c a0 s = .ok ((s.setMem m).setChan c { s.chanAt c with useDefault := false }) := by
  have hno : ¬ rangesOverlap a0.toNat (s.bufBytes c) (s.cfg.channelAt c).ibTxAddr.toNat (s.bufBytes c) = true := by
    rw [rangesOverlap_iff]; omega
  simp only [fillInternal, if_neg hno, hcopy]

theorem fillInternal_overlap {s : State} {c : Nat} {a0 : Word} (hlow : a0.toNat < (s.cfg.channelAt c).ibTxAddr.toNat + s.bufBytes c)
    (hhigh : (s.cfg.channelAt c).ibTxAddr.toNat < a0.toNat + s.bufBytes c) (hpos : 0 < s.bufBytes c) :
    fillInternal c a0 s = .error (.refused .overlappingBuffers) :=
  if_pos (rangesOverlap_iff.2 ⟨hlow, hhigh, hpos, hpos⟩)

/-- Settles O23: a source apart from the internal buffer lies above it, or so far below that no byte is written before it is read. -/
theorem writeIbFillsTheBuffer : Obligations.WriteIbFillsTheBuffer := by
  unfold Obligations.WriteIbFillsTheBuffer
  refine fun s k a0 hon hc => ⟨fun hkind => congrArg outcome (cmdWriteIb_external hon hc a0 hkind), fun hkind hactive =>
    ⟨fun hnull => ?null, fun hne ha => congrArg outcome (cmdWriteIb_misaligned hon hc hkind hactive hne ha), fun hne ha =>
      ⟨fun hlow hhigh hpos => ?overlap, fun hapart hm hsrc hdst => ?copy⟩⟩⟩
  case null =>
    subst hnull
    exact congrArg outcome (cmdWriteIb_null hon hc hkind hactive)
  case overlap =>
    have hcmd := cmdWriteIb_fill hon hc hkind hactive hne ha
    rw [fillInternal_overlap hlow hhigh hpos] at hcmd
    exact congrArg outcome hcmd
  case copy =>
    obtain ⟨m, hcopy⟩ := copyFrames_completes s.mem (bpf (s.widthOf k.toNat)) (s.chanAt k.toNat).length _ _ hsrc hdst
    have hcmd := cmdWriteIb_fill hon hc hkind hactive hne ha
    rw [fillInternal_apart hapart hcopy] at hcmd
    exact ⟨m, congrArg outcome hcmd,
      fun i => readByte_copyFrames_old (bpf_le_four _) hm hcopy (hapart.imp_left (Nat.le_trans (Nat.le_add_right _ _))),
      fun x => readByte_copyFrames_outside hcopy⟩

/-- Settles O24: the destination is below the buffer, past its end, or a number of whole frames above its start. -/
theorem readIbCopiesOut : Obligations.ReadIbCopiesOut := by
  unfold Obligations.ReadIbCopiesOut
  refine fun s k a0 hon hc => ⟨fun hkind => congrArg outcome (cmdReadIb_external hon hc a0 hkind), fun hkind =>
    ⟨fun ha => congrArg outcome (cmdReadIb_badPointer hon hc hkind ha), fun hne ha hrx hm hdst hsrc => ?copy⟩⟩
  case copy =>
    obtain ⟨m, hcopy⟩ := copyFrames_completes s.mem (bpf (s.widthOf k.toNat)) (s.chanAt k.toNat).length _ _ hsrc hdst
    refine ⟨m, congrArg outcome (cmdReadIb_copy hon hc hkind hne ha hcopy),
      fun hapart i => readByte_copyFrames_old (bpf_le_four _) hm hcopy hapart, fun hle i hi => ?above,
      fun x => readByte_copyFrames_outside hcopy⟩
    case above =>
      obtain ⟨d, hd⟩ := Nat.dvd_sub (Nat.dvd_of_mod_eq_zero ha) (Nat.dvd_of_mod_eq_zero hrx)
      refine readByte_copyFrames_repeats (bpf_le_four _) hm hcopy (k := d) ?_ hi
      rw [Nat.mul_comm, ← hd]
      exact (Nat.add_sub_of_le hle).symm

end Sys2Proof.Machine

/-! SUPPORT and PROOFS of the life-cycle family, `INIT` and `DEINIT` (40_lifecycle_buffers_queries.md R171 to R174): the tables that an
undisturbed `LpspiInit` of some units writes, and what each entry of a table reads afterwards. -/

namespace Sys2Proof.Machine

/-! Tables that are written entry by entry -/

theorem tget_mapFirst_of_le {α : Type} [Inhabited α] (f : α → α) {n i : Nat} {l : List α} (hi : n ≤ i) :
    tget (mapFirst f n l) i = tget l i := by
  induction l generalizing n i with
  | nil => rw [mapFirst]
  | cons x rest ih =>
    cases n with
    | zero => rfl
    | succ n =>
      cases i with
      | zero => cases hi
      | succ i => exact ih (Nat.le_of_succ_le_succ hi)

/-- The entries of a table at the indices of a list, each after `f` of its index. -/
def updateEach {α : Type} [Inhabited α] (f : Nat → α → α) : List Nat → List α → List α
  | [], l => l
  | u :: rest, l => updateEach f rest (tset l u (f u (tget l u)))

section
variable {α : Type} [Inhabited α] {f : Nat → α → α}

theorem tget_updateEach_of_notMem {us : List Nat} {l : List α} {u : Nat} (hu : u ∉ us) :
    tget (updateEach f us l) u = tget l u := by
  induction us generalizing l with
  | nil => rfl
  | cons v rest ih =>
    obtain ⟨hne, hrest⟩ := not_or.1 (mt List.mem_cons.2 hu)
    rw [updateEach, ih hrest, tget_tset_ne _ _ _ _ (Ne.symm hne)]

theorem tget_updateEach_of_mem {us : List Nat} {l : List α} {u : Nat} (hnodup : us.Nodup) (hu : u ∈ us) (hl : u < l.length) :
    tget (updateEach f us l) u = f u (tget l u) := by
  induction us generalizing l with
  | nil => cases hu
  | cons v rest ih =>
    obtain ⟨hv, hnodup⟩ := List.nodup_cons.1 hnodup
    rw [updateEach]
    obtain rfl | hrest := List.mem_cons.1 hu
    · rw [tget_updateEach_of_notMem hv, tget_tset_same _ _ _ hl]
    · have hne : v ≠ u := fun h => hv (h ▸ hrest)
      rw [ih hnodup hrest (by rwa [tset_length]), tget_tset_ne _ _ _ _ hne]

end

/-! DMA bindings (42_engine_dma.md R251) -/

/-- What `DmaBind` leaves in a DMA channel whose peripheral end is `TXDATA` of unit `u`. -/
def DmaChan.boundTx (u : Nat) (d : DmaChan) : DmaChan :=
  { d with tcd := { d.tcd with dst := .txData u, dstInc := 0 }, active := false, done := false }

/-- What `DmaBind` leaves in a DMA channel whose peripheral end is `RXDATA` of unit `u`. -/
def DmaChan.boundRx (u : Nat) (d : DmaChan) : DmaChan :=
  { d with tcd := { d.tcd with src := .rxData u, srcInc := 0 }, active := false, done := false }

/-- The bindings that `LpspiInit(u)` makes, in order: a DMA channel and what becomes of it (40_lifecycle_buffers_queries.md R173). -/
def bindings (c : Cfg) (u : Nat) : List (Nat × (DmaChan → DmaChan)) :=
  if (c.unitAt u).dmaUsed = true then
    [((c.unitAt u).dmaTxCh, DmaChan.boundTx u), ((c.unitAt u).dmaRxCh, DmaChan.boundRx u)]
  else []

/-- The DMA channels after the bindings of a list, in order. -/
def bindAll : List (Nat × (DmaChan → DmaChan)) → List (Nat × DmaChan) → List (Nat × DmaChan)
  | [], l => l
  | (ch, f) :: rest, l => bindAll rest (dmaStore l ch (f (dmaLookup l ch)))

theorem bindAll_append (bs bs' : List (Nat × (DmaChan → DmaChan))) (l : List (Nat × DmaChan)) :
    bindAll (bs ++ bs') l = bindAll bs' (bindAll bs l) := by
  induction bs generalizing l with
  | nil => rfl
  | cons b rest ih => exact ih _

theorem dmaLookup_bindAll_of_notMem {bs : List (Nat × (DmaChan → DmaChan))} {l : List (Nat × DmaChan)} {ch : Nat}
    (hch : ch ∉ bs.map Prod.fst) : dmaLookup (bindAll bs l) ch = dmaLookup l ch := by
  induction bs generalizing l with
  | nil => rfl
  | cons b rest ih =>
    rw [List.map_cons] at hch
    obtain ⟨hne, hrest⟩ := not_or.1 (mt List.mem_cons.2 hch)
    rw [bindAll, ih hrest, dmaLookup_dmaStore_ne _ _ _ _ (Ne.symm hne)]

theorem dmaLookup_bindAll_of_mem {bs : List (Nat × (DmaChan → DmaChan))} {l : List (Nat × DmaChan)} {ch : Nat} {f : DmaChan → DmaChan}
    (hnodup : (bs.map Prod.fst).Nodup) (hmem : (ch, f) ∈ bs) : dmaLookup (bindAll bs l) ch = f (dmaLookup l ch) := by
  induction bs generalizing l with
  | nil => cases hmem
  | cons b rest ih =>
    rw [List.map_cons] at hnodup
    obtain ⟨hb, hnodup⟩ := List.nodup_cons.1 hnodup
    rw [bindAll]
    obtain rfl | hrest := List.mem_cons.1 hmem
    · rw [dmaLookup_bindAll_of_notMem hb, dmaLookup_dmaStore_same]
    · have hne : b.1 ≠ ch := fun h => hb (h ▸ List.mem_map_of_mem hrest)
      rw [ih hnodup hrest, dmaLookup_dmaStore_ne _ _ _ _ hne]

theorem noRepeat_iff {α : Type} [DecidableEq α] {l : List α} : noRepeat l = true ↔ l.Nodup := by
  induction l with
  | nil => simp [noRepeat]
  | cons a rest ih => simp [noRepeat, ih]

/-- The DMA channels that `LpspiInit` binds are those that the configuration numbers. -/
theorem bindings_channels (c : Cfg) : ((List.range c.numUnits).flatMap (bindings c)).map Prod.fst = dmaNumbers c.units := by
  have hkeys : ∀ us : List UnitCfg, us.flatMap (fun k => if k.dmaUsed = true then [k.dmaTxCh, k.dmaRxCh] else []) = dmaNumbers us := by
    intro us
    induction us with
    | nil => rfl
    | cons k rest ih => rw [List.flatMap_cons, ih, dmaNumbers]; split <;> rfl
  have hunits : (List.range c.numUnits).map c.unitAt = c.units :=
    List.ext_getElem (by simp [Cfg.numUnits]) fun i h h' => by simp [Cfg.unitAt, tget_eq_getElem _ _ h']
  rw [List.map_flatMap, ← hkeys c.units]
  conv_rhs => rw [← hunits, List.flatMap_map]
  refine List.flatMap_congr fun u _ => ?_
  unfold bindings
  split <;> rfl

theorem cfgWellFormed_bindings_nodup {p : Params} {c : Cfg} (hwf : cfgWellFormed p c = true) :
    (((List.range c.numUnits).flatMap (bindings c)).map Prod.fst).Nodup := by
  simp only [cfgWellFormed, Bool.and_eq_true] at hwf
  obtain ⟨-, hdma⟩ := hwf
  rw [bindings_channels]
  exact noRepeat_iff.1 hdma

theorem mem_bindings {c : Cfg} {u : Nat} {b : Nat × (DmaChan → DmaChan)} : b ∈ bindings c u ↔ (c.unitAt u).dmaUsed = true ∧
    (b = ((c.unitAt u).dmaTxCh, DmaChan.boundTx u) ∨ b = ((c.unitAt u).dmaRxCh, DmaChan.boundRx u)) := by
  unfold bindings
  split <;> simp_all

/-! `LpspiInit` when nothing is due (40_lifecycle_buffers_queries.md R173) -/

/-- The state after `LpspiInit` of the units of a list, nothing coming between its register accesses. -/
def State.unitsInitialised (s : State) (us : List Nat) : State :=
  { s with
    dev := updateEach (fun u d => { d with base := s.params.baseAt u }) us s.dev
    lpspi := updateEach (fun u p => { p with cspol := idlePolarity u s.cfg.jobs }) us s.lpspi
    dma := bindAll (us.flatMap (bindings s.cfg)) s.dma
    trace := s.trace ++ us.flatMap (initEntries s.cfg) }

theorem unitsInitialised_cons (s : State) (u : Nat) (us : List Nat) :
    (s.unitsInitialised [u]).unitsInitialised us = s.unitsInitialised (u :: us) := by
  simp [State.unitsInitialised, updateEach, bindAll_append]

theorem lpspiInit_undisturbed {s : State} (h : s.undisturbed = true) (u : Nat) : lpspiInit u s = .ok (s.unitsInitialised [u]) := by
  have hdev : (s.setDev u { s.devAt u with base := s.params.baseAt u }).undisturbed = true := h
  rw [lpspiInit, regWrite_undisturbed hdev, res_ok_bind]
  -- the writes of `LpspiInit(u)`, with its two bindings or without them
  by_cases hdma : (s.cfg.unitAt u).dmaUsed = true <;>
    simp [State.unitsInitialised, updateEach, bindings, initEntries, bindAll, hdma, dmaBindTx, dmaBindRx, DmaChan.boundTx,
      DmaChan.boundRx, State.emit, State.setDma, State.dmaAt, State.setDev, State.devAt, State.pokeReg, State.lpspiAt, usesFree,
      Lpspi.write]

theorem lpspiInitAll_undisturbed {s : State} (h : s.undisturbed = true) (us : List Nat) :
    lpspiInitAll us s = .ok (s.unitsInitialised us) := by
  induction us generalizing s with
  | nil => simp [lpspiInitAll, State.unitsInitialised, updateEach, bindAll]
  | cons u rest ih =>
    have hnext : (s.unitsInitialised [u]).undisturbed = true := h
    simp only [lpspiInitAll, lpspiInit_undisturbed h, ih hnext, unitsInitialised_cons]

/-! `INIT` (R171) -/

/-- The state that an undisturbed `INIT` with configuration `c` answers. -/
def State.initialised (s : State) (c : Cfg) : State :=
  { (initTables c s).unitsInitialised (List.range c.numUnits) with drvInit := true }

theorem cmdInit_undisturbed {s : State} {a0 : Word} {c : Cfg} (h : s.undisturbed = true) (hoff : s.drvInit = false) (hne : a0 ≠ 0)
    (hc : lookupConfig s.hostConfigs a0 = some c) (hwf : cfgWellFormed s.params c = true) :
    cmdInit a0 s = .ok ((s.initialised c).says [] 0) := by
  have htables : (initTables c s).undisturbed = true := h
  rw [cmdInit, if_neg (by simp [hoff]), if_neg hne, hc]
  simp only [if_pos hwf, initWith, lpspiInitAll_undisturbed htables, res_ok_bind, respond_eq_says]
  rfl

theorem idlePolarity_getLsbD {u b : Nat} {jobs : List JobCfg} : (idlePolarity u jobs).getLsbD b = true ↔
    ∃ j ∈ jobs, j.hwUnit = u ∧ j.dev.csIdlePol.getLsbD b = true := by
  induction jobs with
  | nil => simp [idlePolarity]
  | cons j rest ih =>
    rw [idlePolarity]
    split <;> simp_all

section
variable {s : State} {c : Cfg} {u : Nat}

theorem initialised_outside (hu : c.numUnits ≤ u) : (s.initialised c).unitAt u = s.unitAt u ∧
    (s.initialised c).devAt u = s.devAt u ∧ (s.initialised c).lpspiAt u = s.lpspiAt u := by
  have hout : u ∉ List.range c.numUnits := by simpa using hu
  exact ⟨tget_mapFirst_of_le _ hu, (tget_updateEach_of_notMem hout).trans (tget_mapFirst_of_le _ hu), tget_updateEach_of_notMem hout⟩

theorem initialised_unitAt (hu : u < c.numUnits) (hlen : u < s.unit.length) : (s.initialised c).unitAt u = initUnit :=
  tget_mapFirst _ hu hlen

theorem initialised_devAt (hu : u < c.numUnits) (hlen : u < s.dev.length) :
    (s.initialised c).devAt u = { initDev (s.devAt u) with base := s.params.baseAt u } := by
  have hdev : (s.initialised c).devAt u = { tget (mapFirst initDev c.numUnits s.dev) u with base := s.params.baseAt u } :=
    tget_updateEach_of_mem List.nodup_range (List.mem_range.2 hu) (by rwa [initTables, mapFirst_length])
  rw [hdev, tget_mapFirst _ hu hlen]
  rfl

theorem initialised_lpspiAt (hu : u < c.numUnits) (hlen : u < s.lpspi.length) :
    (s.initialised c).lpspiAt u = { s.lpspiAt u with cspol := idlePolarity u c.jobs } :=
  tget_updateEach_of_mem List.nodup_range (List.mem_range.2 hu) hlen

theorem initialised_dmaAt_bound {b : Nat × (DmaChan → DmaChan)} (hwf : cfgWellFormed s.params c = true) (hu : u < c.numUnits)
    (hb : b ∈ bindings c u) : (s.initialised c).dmaAt b.1 = b.2 (s.dmaAt b.1) :=
  dmaLookup_bindAll_of_mem (cfgWellFormed_bindings_nodup hwf) (List.mem_flatMap.2 ⟨u, List.mem_range.2 hu, hb⟩)

theorem initialised_dmaAt_unbound {ch : Nat} (hfree : ∀ u, u < c.numUnits → (c.unitAt u).dmaUsed = true →
    ch ≠ (c.unitAt u).dmaTxCh ∧ ch ≠ (c.unitAt u).dmaRxCh) : (s.initialised c).dmaAt ch = s.dmaAt ch := by
  refine dmaLookup_bindAll_of_notMem fun hmem => ?_
  obtain ⟨b, hb, rfl⟩ := List.mem_map.1 hmem
  obtain ⟨u, hu, hb⟩ := List.mem_flatMap.1 hb
  obtain ⟨hdma, hch⟩ := mem_bindings.1 hb
  obtain ⟨htx, hrx⟩ := hfree u (List.mem_range.1 hu) hdma
  obtain rfl | rfl := hch
  · exact htx rfl
  · exact hrx rfl

end

@[simp] theorem says_devAt (s : State) (es : List Entry) (v : Word) (u : Nat) : (s.says es v).devAt u = s.devAt u := rfl

/-- `ChanState[c]` after `INIT`, by the buffer kind (10_state.md R73). -/
theorem initChan_eq (k : ChannelCfg) : initChan k = if k.bufKind = .ib then
      { useDefault := true, discardRx := false, length := k.maxLength, txPtr := some k.ibTxAddr, rxPtr := some k.ibRxAddr }
    else { useDefault := true, discardRx := true, length := 0, txPtr := none, rxPtr := none } := by
  cases hk : k.bufKind <;> simp [initChan, hk]

/-- Settles O15: the state that `INIT` answers is `State.initialised`, read table by table. -/
theorem initWritesTheTables : Obligations.InitWritesTheTables := by
  unfold Obligations.InitWritesTheTables
  intro s a0 c h hoff hne hc hwf hunit hdev hlpspi
  have hle := cfgWellFormed_numUnits_le hwf
  refine ⟨_, congrArg outcome (cmdInit_undisturbed h hoff hne hc hwf), rfl, rfl, rfl, fun u hu => ?units,
    fun u => initialised_outside, ?chan, rfl, rfl, rfl, rfl, fun u hu hdma => ?bound, fun ch => initialised_dmaAt_unbound,
    ?trace, rfl, rfl, rfl, rfl, rfl, rfl, rfl⟩
  case units =>
    refine ⟨initialised_unitAt hu (by omega), ?_, initialised_lpspiAt hu (by omega), fun b _ => idlePolarity_getLsbD⟩
    rw [says_devAt, initialised_devAt hu (by omega)]
    rfl
  case chan => exact List.map_congr_left fun k _ => initChan_eq k
  case bound =>
    exact ⟨initialised_dmaAt_bound hwf hu (mem_bindings.2 ⟨hdma, .inl rfl⟩),
      initialised_dmaAt_bound hwf hu (mem_bindings.2 ⟨hdma, .inr rfl⟩)⟩
  case trace => simp [State.says, State.initialised, State.unitsInitialised, initTables]

/-! `DEINIT` (R174) -/

section
variable {s : State} (hon : s.drvInit = true)
include hon

theorem cmdDeinit_busy (hbusy : s.driverStatus = .busy) : cmdDeinit s = .ok (s.says [] 1) := by
  simp [cmdDeinit, hon, hbusy, respond_eq_says, eNotOk]

theorem cmdDeinit_done (hidle : s.driverStatus = .idle) :
    cmdDeinit s = .ok (({ uninitUnits s with drvInit := false } : State).says [] 0) := by
  simp [cmdDeinit, hon, hidle, respond_eq_says, eOk]

end

/-- Settles O19: the two cases are the two values of the status of an initialised driver. -/
theorem deinitCases : Obligations.DeinitCases := by
  unfold Obligations.DeinitCases
  refine fun s hon => ⟨fun hbusy => congrArg outcome (cmdDeinit_busy hon (driverStatus_busy hon hbusy)), fun hmask hunits =>
    ⟨_, congrArg outcome (cmdDeinit_done hon (driverStatus_idle hon hmask hunits)), ?frame,
      fun u hu hlen => tget_mapFirst _ hu hlen, fun u hu => tget_mapFirst_of_le _ hu, ?status⟩⟩
  case frame => simp [State.says, uninitUnits]
  case status => rw [exec_getStatus, driverStatus_uninit (by rfl)]; rfl

end Sys2Proof.Machine

/-! SUPPORT and PROOFS of the FIFO-engine family (41_engine_fifo.md): what each operation of the engine makes of one unit when nothing
comes between its register accesses, the start of a job, the ends of a channel and of a job, and the dispatches of `EV_FIFO`. -/

namespace Sys2Proof.Machine

/-! What the engine writes while it works for one unit -/

/-- `s` with memory `m`, in which unit `u` has the record `d` and the peripheral `p` and the block has sent out `es`. -/
def State.onUnit (s : State) (u : Nat) (m : Memory) (d : Dev) (p : Lpspi) (es : List Entry) : State :=
  { s with mem := m, dev := s.dev.set u d, lpspi := s.lpspi.set u p, trace := s.trace ++ es }

/-- Unit `u` has a record and a peripheral, and nothing comes between the register accesses of a segment (20_memory.md R111). -/
structure Alone (s : State) (u : Nat) : Prop where
  dev : u < s.dev.length
  lpspi : u < s.lpspi.length
  calm : s.undisturbed = true

theorem Alone.of_tablesOk {s : State} {u : Nat} (htables : s.tablesOk = true) (hinit : s.drvInit = true) (hu : u < s.cfg.numUnits)
    (hcalm : s.undisturbed = true) : Alone s u := by
  obtain ⟨⟨-, hdev, hlpspi, -⟩, hcomputed⟩ := tablesOk_iff.1 htables
  have hle := cfgWellFormed_numUnits_le (hcomputed hinit).1
  exact ⟨by omega, by omega, hcalm⟩

theorem channelAt_width (s : State) (c : Nat) : (s.cfg.channelAt c).width = s.widthOf c := rfl

theorem set_tget_self {α : Type} [Inhabited α] (l : List α) (i : Nat) : l.set i (tget l i) = l := by
  by_cases hi : i < l.length
  · rw [tget_eq_getElem l i hi, List.set_getElem_self]
  · exact List.set_eq_of_length_le (by omega)

theorem onUnit_self (s : State) (u : Nat) : s.onUnit u s.mem (s.devAt u) (s.lpspiAt u) [] = s := by
  simp [State.onUnit, State.devAt, State.lpspiAt, set_tget_self]

section
variable (s : State) (u : Nat) (m : Memory) (d : Dev) (p : Lpspi) (es : List Entry)

@[simp] theorem onUnit_params : (s.onUnit u m d p es).params = s.params := rfl
@[simp] theorem onUnit_cfg : (s.onUnit u m d p es).cfg = s.cfg := rfl
@[simp] theorem onUnit_freeCount : (s.onUnit u m d p es).freeCount = s.freeCount := rfl
@[simp] theorem onUnit_chanAt (c : Nat) : (s.onUnit u m d p es).chanAt c = s.chanAt c := rfl
@[simp] theorem onUnit_jobAt (j : Nat) : (s.onUnit u m d p es).jobAt j = s.jobAt j := rfl
@[simp] theorem onUnit_chanOf (j k : Nat) : (s.onUnit u m d p es).chanOf j k = s.chanOf j k := rfl
@[simp] theorem onUnit_unitOf (j : Nat) : (s.onUnit u m d p es).unitOf j = s.unitOf j := rfl
@[simp] theorem onUnit_numChannelsOf (j : Nat) : (s.onUnit u m d p es).numChannelsOf j = s.numChannelsOf j := rfl
@[simp] theorem setDev_onUnit (d' : Dev) : (s.onUnit u m d p es).setDev u d' = s.onUnit u m d' p es := by
  simp [State.onUnit, State.setDev, tset]

@[simp] theorem setLpspi_onUnit (p' : Lpspi) : (s.onUnit u m d p es).setLpspi u p' = s.onUnit u m d p' es := by
  simp [State.onUnit, State.setLpspi, tset]

@[simp] theorem emit_onUnit (e : Entry) : (s.onUnit u m d p es).emit e = s.onUnit u m d p (es ++ [e]) := by
  simp [State.onUnit, State.emit]

@[simp] theorem notify_onUnit (on : Bool) (k : NotifKind) (i : Nat) :
    notify on k i (s.onUnit u m d p es) = s.onUnit u m d p (es ++ notice on k i) := by
  cases on <;> simp [notify, notice]

theorem txFrameValue_onUnit (c : Nat) (w : Width) (i : Nat) :
    txFrameValue (s.onUnit u m d p es) c w i = txFrameValue (s.setMem m) c w i := rfl

end

/-! The bytes of a frame (20_memory.md R90, R94, R95) -/

/-- Memory `m` after `RxStoreFrame` of `v` as frame `i` of channel `c`. -/
def State.keepFrame (s : State) (c i : Nat) (v : Word) (m : Memory) : Memory :=
  if (s.chanAt c).discardRx = true then m
  else
    match (s.chanAt c).rxPtr with
    | none => m
    | some p => memWrite m (frameAddr p (s.widthOf c) i) (bpf (s.widthOf c)) (truncW (s.widthOf c) v).toNat

theorem keepFrame_dropped {s : State} {c : Nat} (h : (s.chanAt c).discardRx = true ∨ (s.chanAt c).rxPtr = none) (i : Nat) (v : Word)
    (m : Memory) : s.keepFrame c i v m = m := by
  unfold State.keepFrame
  split
  · rfl
  · obtain hdiscard | hptr := h
    · contradiction
    · rw [hptr]

theorem keepFrame_stored {s : State} {c : Nat} {p : Word} (hdiscard : (s.chanAt c).discardRx = false)
    (hptr : (s.chanAt c).rxPtr = some p) (i : Nat) (v : Word) (m : Memory) : s.keepFrame c i v m =
      memWrite m (frameAddr p (s.widthOf c) i) (bpf (s.widthOf c)) (truncW (s.widthOf c) v).toNat := by
  simp [State.keepFrame, hdiscard, hptr]

/-- A channel drops its received frames or keeps them at a pointer. -/
theorem keeps_or_drops (s : State) (c : Nat) : ((s.chanAt c).discardRx = true ∨ (s.chanAt c).rxPtr = none) ∨
    ∃ p, (s.chanAt c).discardRx = false ∧ (s.chanAt c).rxPtr = some p := by
  cases (s.chanAt c).discardRx <;> cases (s.chanAt c).rxPtr <;> simp

theorem chanReady_iff {s : State} {c : Nat} : s.chanReady c = true ↔ 0 < (s.chanAt c).length ∧ (s.chanAt c).length ≤ 65535 ∧
    (∀ a ∈ s.txSpan c, a.start + a.bytes ≤ addressCount) ∧ ∀ a ∈ s.rxSpan c, a.start + a.bytes ≤ addressCount := by
  simp [State.chanReady, Span.inMemory, and_assoc]

/-- A frame of a buffer that lies in memory lies in memory. -/
theorem frameAddr_inside {s : State} {c i : Nat} {p : Word} (hspan : p.toNat + s.bufBytes c ≤ addressCount)
    (hi : i < (s.chanAt c).length) : frameAddr p (s.widthOf c) i + bpf (s.widthOf c) ≤ addressCount := by
  have hmul : (i + 1) * bpf (s.widthOf c) ≤ s.bufBytes c := Nat.mul_le_mul_right _ hi
  rw [Nat.succ_mul] at hmul
  unfold frameAddr
  omega

/-- Every frame of a channel that can be transferred can be loaded. -/
theorem txFrameValue_of_chanReady {s : State} {c i : Nat} (hready : s.chanReady c = true) (hi : i < (s.chanAt c).length) (m : Memory) :
    ∃ v, txFrameValue (s.setMem m) c (s.widthOf c) i = .ok v := by
  obtain ⟨-, -, hspan, -⟩ := chanReady_iff.1 hready
  by_cases hdefault : (s.chanAt c).useDefault = true ∨ (s.chanAt c).txPtr = none
  · exact ⟨_, txFrameValue_default (s := s.setMem m) hdefault⟩
  · obtain ⟨huse, hptr⟩ := not_or.1 hdefault
    rw [Bool.not_eq_true] at huse
    obtain ⟨p, hptr⟩ := Option.ne_none_iff_exists'.1 hptr
    have hmem : p.toNat + s.bufBytes c ≤ addressCount := hspan ⟨p.toNat, s.bufBytes c⟩ (by simp [State.txSpan, huse, hptr])
    obtain ⟨v, hv, -⟩ := loadBytes_inside (m := m) (bpf_le_four (s.widthOf c)) (frameAddr_inside hmem hi)
    exact ⟨v, (txFrameValue_load (s := s.setMem m) huse hptr hi).trans hv⟩

/-- Every frame of a channel that can be transferred can be stored. -/
theorem rxStoreFrame_onUnit {s : State} {u c i : Nat} {v : Word} {m : Memory} {d : Dev} {p : Lpspi} {es : List Entry}
    (hready : s.chanReady c = true) (hi : i < (s.chanAt c).length) :
    rxStoreFrame (s.onUnit u m d p es) c (s.widthOf c) i v = .ok (s.onUnit u (s.keepFrame c i v m) d p es) := by
  obtain ⟨-, -, -, hspan⟩ := chanReady_iff.1 hready
  obtain hdrop | ⟨q, hdiscard, hptr⟩ := keeps_or_drops s c
  · rw [keepFrame_dropped hdrop]; exact rxStoreFrame_dropped hdrop
  · have hmem : q.toNat + s.bufBytes c ≤ addressCount := hspan ⟨q.toNat, s.bufBytes c⟩ (by simp [State.rxSpan, hdiscard, hptr])
    rw [keepFrame_stored hdiscard hptr]
    exact rxStoreFrame_stored hdiscard hptr hi (frameAddr_inside hmem hi)

theorem keepFrame_wf {s : State} {c : Nat} {m : Memory} (hm : Memory.wf m = true) (i : Nat) (v : Word) :
    Memory.wf (s.keepFrame c i v m) = true := by
  obtain hdrop | ⟨q, hdiscard, hptr⟩ := keeps_or_drops s c
  · rw [keepFrame_dropped hdrop]; exact hm
  · rw [keepFrame_stored hdiscard hptr]; exact memWrite_wf hm _ _ _

/-- What `RxStoreFrame` leaves is what R95 asks for. -/
theorem storesFrame_keepFrame {s : State} (hm : s.memOk = true) (c i : Nat) (v : Word) :
    s.storesFrame (s.keepFrame c i v s.mem) c i v := by
  obtain hdrop | ⟨q, hdiscard, hptr⟩ := keeps_or_drops s c
  · rw [keepFrame_dropped hdrop]
    refine ⟨fun p hdiscard hptr => ?_, fun _ _ => rfl⟩
    simp [hdiscard, hptr] at hdrop
  · rw [keepFrame_stored hdiscard hptr]; exact storesFrame_memWrite hdiscard hptr hm

/-! Register accesses and the counters of a frame (41_engine_fifo.md R217, R223) -/

/-- `Dev[u]` after `n` frames of a channel were sent. -/
def Dev.sent (d : Dev) (n : Nat) : Dev := { d with txRemaining := d.txRemaining - n, sentFrames := d.sentFrames + n }

/-- `Dev[u]` after `n` frames of a channel were received. -/
def Dev.received (d : Dev) (n : Nat) : Dev := { d with rxRemaining := d.rxRemaining - n }

section
variable {s : State} {u : Nat} {m : Memory} {d : Dev} {p : Lpspi} {es : List Entry} (h : Alone s u)
include h

theorem Alone.onUnit : (s.onUnit u m d p es).undisturbed = true := h.calm

theorem devAt_onUnit : (s.onUnit u m d p es).devAt u = d := tget_tset_same _ _ _ h.dev

theorem lpspiAt_onUnit : (s.onUnit u m d p es).lpspiAt u = p := tget_tset_same _ _ _ h.lpspi

theorem currentJob_onUnit {j : Nat} (hcur : d.curJob = some j) : currentJob u (s.onUnit u m d p es) = .ok j := by
  simp [currentJob, devAt_onUnit h, hcur]

/-- A register write that uses up no free value. -/
theorem regWrite_onUnit {w : RegWrite} (hfree : usesFree s.params.fifoSize p w = false) :
    regWrite u w (s.onUnit u m d p es) =
      .ok (s.onUnit u m d (p.write s.params.fifoSize s.freeCount w) (es ++ [.regWrite u w])) := by
  have hpoke : (s.onUnit u m d p es).pokeReg u w = s.onUnit u m d (p.write s.params.fifoSize s.freeCount w) es := by
    simp only [State.pokeReg, lpspiAt_onUnit h, onUnit_params, onUnit_freeCount, hfree]
    simp [State.onUnit, tset]
  rw [regWrite_undisturbed h.onUnit, hpoke, emit_onUnit]

theorem readFifoStat_onUnit : readFifoStat u (s.onUnit u m d p es) =
    .ok ((p.txCount, p.rxCount), s.onUnit u m d p (es ++ [.regRead u (.fifostat p.txCount p.rxCount)])) := by
  rw [readFifoStat_undisturbed h.onUnit, lpspiAt_onUnit h, emit_onUnit]

theorem readRxData_onUnit {v : Word} {rest : List Word} (hfifo : p.rxFifo = v :: rest) : readRxData u (s.onUnit u m d p es) =
    .ok (v, s.onUnit u m d { p with rxFifo := rest } (es ++ [.regRead u (.rxdata v)])) := by
  simp [readRxData_undisturbed h.onUnit, State.popRx, lpspiAt_onUnit h, hfifo]

theorem irqOn_onUnit : irqOn u (s.onUnit u m d p es) = s.onUnit u m { d with irqEnabled := true } p (es ++ [.irqEnable u true]) := by
  simp [irqOn, devAt_onUnit h]

/-- A frame into `TXDATA` with room for it. -/
theorem sendFrame_onUnit {c : Nat} {w : Width} {v : Word} (hleft : 0 < d.txRemaining) (hsent : d.sentFrames < 65535)
    (hroom : p.txCount < s.params.fifoSize) (hv : txFrameValue (s.setMem m) c w ((s.chanAt c).length - d.txRemaining) = .ok v) :
    sendFrame u c w (s.onUnit u m d p es) = .ok (s.onUnit u m (d.sent 1) (p.write s.params.fifoSize s.freeCount (.txdata v))
      (es ++ [.regWrite u (.txdata v)])) := by
  have hdown : countDown d.txRemaining = .ok (d.txRemaining - 1) := countDown_eq_ok.2 (by omega)
  have hup : countUp d.sentFrames = .ok (d.sentFrames + 1) := countUp_eq_ok.2 ⟨hsent, rfl⟩
  have hfree : usesFree s.params.fifoSize p (.txdata v) = false := by simp [usesFree, hroom]
  simp only [sendFrame, devAt_onUnit h, hdown, hup, res_ok_bind, onUnit_chanAt, txFrameValue_onUnit, hv, regWrite_onUnit h hfree,
    setDev_onUnit, Dev.sent]

/-- A frame from `RXDATA`, stored at its place. -/
theorem receiveFrame_onUnit {c : Nat} {v : Word} {rest : List Word} (hleft : 0 < d.rxRemaining) (hfifo : p.rxFifo = v :: rest)
    (hready : s.chanReady c = true) (hlen : d.rxRemaining ≤ (s.chanAt c).length) :
    receiveFrame u c (s.widthOf c) (s.onUnit u m d p es) =
      .ok (s.onUnit u (s.keepFrame c ((s.chanAt c).length - d.rxRemaining) v m) (d.received 1) { p with rxFifo := rest }
        (es ++ [.regRead u (.rxdata v)])) := by
  have hdown : countDown d.rxRemaining = .ok (d.rxRemaining - 1) := countDown_eq_ok.2 (by omega)
  have hidx : (s.chanAt c).length - d.rxRemaining < (s.chanAt c).length := by omega
  simp only [receiveFrame, devAt_onUnit h, hdown, res_ok_bind, onUnit_chanAt, readRxData_onUnit h hfifo,
    rxStoreFrame_onUnit hready hidx, setDev_onUnit, Dev.received]

end

/-! The peripheral after a list of register writes (10_state.md R68) -/

section
variable {fifoSize free : Nat} {p : Lpspi}

theorem writes_append (p : Lpspi) (ws ws' : List RegWrite) :
    p.writes fifoSize free (ws ++ ws') = (p.writes fifoSize free ws).writes fifoSize free ws' := List.foldl_append

theorem txCount_settle (items : List TxItem) (p : Lpspi) : (p.settle items).txCount = countFrames items := by
  unfold Lpspi.settle
  split
  · rfl
  · obtain ⟨c, k, l, hl, hc⟩ := settleFrom_frame items p
    rw [hl]; exact hc

/-- A command word is not counted among the frames (R68, "fill counts"). -/
theorem txCount_write_txcmd (c : CmdWord) : (p.write fifoSize free (.txcmd c)).txCount = p.txCount := by
  rw [Lpspi.write, txCount_settle, countFrames_append]; rfl

/-- Frames written while there is room are appended (R68 (P1)). -/
theorem writes_txdata_of_room {n : Nat} (vs : Nat → Word) (hroom : n ≤ fifoSize - p.txCount) :
    p.writes fifoSize free ((List.range n).map fun i => .txdata (vs i)) =
      { p with txFifo := p.txFifo ++ (List.range n).map fun i => .frame (vs i) } := by
  induction n with
  | zero => simp [Lpspi.writes]
  | succ n ih =>
    have hcount : countFrames (p.txFifo ++ (List.range n).map fun i => .frame (vs i)) = p.txCount + n := by
      have hframes := countFrames_map_frame ((List.range n).map vs)
      rw [List.map_map, List.length_map, List.length_range] at hframes
      exact (countFrames_append _ _).trans (congrArg _ hframes)
    have hlast : countFrames (p.txFifo ++ (List.range n).map fun i => .frame (vs i)) < fifoSize := by omega
    rw [List.range_succ, List.map_append, writes_append, ih (by omega)]
    refine (write_txdata_of_room hlast (vs n)).trans ?_
    simp

theorem txCount_writes_txdata {n : Nat} (vs : Nat → Word) (hroom : n ≤ fifoSize - p.txCount) :
    (p.writes fifoSize free ((List.range n).map fun i => .txdata (vs i))).txCount = p.txCount + n := by
  rw [writes_txdata_of_room vs hroom]
  have hframes := countFrames_map_frame ((List.range n).map vs)
  rw [List.map_map, List.length_map, List.length_range] at hframes
  exact (countFrames_append _ _).trans (congrArg _ hframes)

end

theorem repeatN_succ (f : State → Res State) (n : Nat) (s : State) : repeatN f (n + 1) s = (repeatN f n s >>= f) := by
  induction n generalizing s with
  | zero =>
    simp only [repeatN, res_ok_bind]
    cases f s <;> rfl
  | succ n ih =>
    rw [repeatN, repeatN]
    cases f s with
    | error e => rfl
    | ok t => exact ih t

/-! The channels of a job (41_engine_fifo.md R214, R216, R224 to R226) -/

section
variable {s : State} {u : Nat} {m : Memory} {d : Dev} {p : Lpspi} {es : List Entry} (h : Alone s u)
include h

theorem writeCmd_onUnit (c : CmdWord) : writeCmd u c (s.onUnit u m d p es) =
    .ok (s.onUnit u m { d with cmdWord := c } (p.write s.params.fifoSize s.freeCount (.txcmd c)) (es ++ [.regWrite u (.txcmd c)])) := by
  rw [writeCmd, regWrite_onUnit h rfl]
  simp only [res_ok_bind, devAt_onUnit h, setDev_onUnit]

/-- The first channel of a job: watermarks, and the command word with the requested continuous bit. -/
theorem programChannel_first (wmTx wmRx : Nat) (f : Bool → CmdWord) (cont : Bool) :
    programChannel u true wmTx wmRx f cont (s.onUnit u m d p es) =
      .ok (s.onUnit u m { d with cmdWord := f cont, contCSActive := cont }
        (p.writes s.params.fifoSize s.freeCount [.fifoctrl wmTx wmRx, .txcmd (f cont)])
        (es ++ [.regWrite u (.fifoctrl wmTx wmRx), .regWrite u (.txcmd (f cont))])) := by
  rw [programChannel, if_pos rfl, regWrite_onUnit h rfl]
  simp only [res_ok_bind, writeCmd_onUnit h, devAt_onUnit h, setDev_onUnit, List.append_assoc]
  rfl

/-- A later channel: its command word, with the continuous bit as it stands, where it differs from the one in force. -/
theorem programChannel_next (wmTx wmRx : Nat) (f : Bool → CmdWord) (cont : Bool) {ws : List RegWrite}
    (hws : ws = if f d.contCSActive = d.cmdWord then [] else [.txcmd (f d.contCSActive)]) :
    programChannel u false wmTx wmRx f cont (s.onUnit u m d p es) =
      .ok (s.onUnit u m { d with cmdWord := f d.contCSActive } (p.writes s.params.fifoSize s.freeCount ws)
        (es ++ ws.map (.regWrite u))) := by
  rw [programChannel, if_neg Bool.false_ne_true, devAt_onUnit h]
  by_cases heq : f d.contCSActive = d.cmdWord
  · rw [if_pos heq] at hws
    subst hws
    simp [heq, Lpspi.writes]
  · rw [if_neg heq] at hws
    subst hws
    simp only [if_neg heq, writeCmd_onUnit h]
    rfl

theorem txChannelInit_zeroLength {j : Nat} {first : Bool} (hcur : d.curJob = some j)
    (hzero : (s.chanAt (s.chanOf j d.txChanIdx)).length = 0) :
    txChannelInit u first (s.onUnit u m d p es) = .error (.refused .zeroLengthChannel) := by
  simp [txChannelInit, currentJob_onUnit h hcur, devAt_onUnit h, hzero]

theorem txChannelInit_first {j c : Nat} (hcur : d.curJob = some j) (hc : c = s.chanOf j d.txChanIdx) (hlen : 0 < (s.chanAt c).length) :
    txChannelInit u true (s.onUnit u m d p es) =
      .ok (s.onUnit u m { d with
          txRemaining := (s.chanAt c).length, sentFrames := 0
          cmdWord := chanCmd s.cfg j c (s.cfg.jobAt j).dev.contCS, contCSActive := (s.cfg.jobAt j).dev.contCS }
        (p.writes s.params.fifoSize s.freeCount [.fifoctrl (s.cfg.channelAt c).wmTx (s.cfg.channelAt c).wmRx,
          .txcmd (chanCmd s.cfg j c (s.cfg.jobAt j).dev.contCS)])
        (es ++ [.regWrite u (.fifoctrl (s.cfg.channelAt c).wmTx (s.cfg.channelAt c).wmRx),
          .regWrite u (.txcmd (chanCmd s.cfg j c (s.cfg.jobAt j).dev.contCS))])) := by
  subst hc
  simp only [txChannelInit, currentJob_onUnit h hcur, res_ok_bind, devAt_onUnit h, onUnit_chanOf, onUnit_chanAt,
    if_neg hlen.ne', loadTxCounters, setDev_onUnit, programJobChannel, onUnit_cfg, programChannel_first h]

theorem txChannelInit_next {j c : Nat} {cmd : CmdWord} {ws : List RegWrite} (hcur : d.curJob = some j)
    (hc : c = s.chanOf j d.txChanIdx) (hlen : 0 < (s.chanAt c).length) (hcmd : cmd = chanCmd s.cfg j c d.contCSActive)
    (hws : ws = if cmd = d.cmdWord then [] else [.txcmd cmd]) :
    txChannelInit u false (s.onUnit u m d p es) =
      .ok (s.onUnit u m { d with txRemaining := (s.chanAt c).length, sentFrames := 0, cmdWord := cmd }
        (p.writes s.params.fifoSize s.freeCount ws) (es ++ ws.map (.regWrite u))) := by
  subst hc hcmd
  simp only [txChannelInit, currentJob_onUnit h hcur, res_ok_bind, devAt_onUnit h, onUnit_chanOf, onUnit_chanAt,
    if_neg hlen.ne', loadTxCounters, setDev_onUnit, programJobChannel, onUnit_cfg]
  exact programChannel_next h _ _ _ _ hws

theorem rxChannelInit_onUnit {j c : Nat} (hcur : d.curJob = some j) (hc : c = s.chanOf j d.rxChanIdx) (hlen : 0 < (s.chanAt c).length) :
    rxChannelInit u (s.onUnit u m d p es) = .ok (s.onUnit u m { d with rxRemaining := (s.chanAt c).length } p es) := by
  subst hc
  simp only [rxChannelInit, currentJob_onUnit h hcur, res_ok_bind, devAt_onUnit h, onUnit_chanOf, loadRxCounter, onUnit_chanAt,
    if_neg hlen.ne', setDev_onUnit]

/-- The chip-select clear (R226): the command word in force once more without its continuous bit, if the bit is set. -/
theorem clearContCS_onUnit {ws : List RegWrite}
    (hws : ws = if d.contCSActive = true then [.txcmd { d.cmdWord with cont := false }] else []) :
    clearContCS u (s.onUnit u m d p es) = .ok (s.onUnit u m { d with
        contCSActive := false
        cmdWord := if d.contCSActive = true then { d.cmdWord with cont := false } else d.cmdWord }
      (p.writes s.params.fifoSize s.freeCount ws) (es ++ ws.map (.regWrite u))) := by
  subst hws
  rw [clearContCS, devAt_onUnit h]
  by_cases hcont : d.contCSActive = true
  · simp only [if_pos hcont, writeCmd_onUnit h, res_ok_bind, devAt_onUnit h, setDev_onUnit]
    rfl
  · have hsame : { d with contCSActive := false } = d := by rw [← Bool.eq_false_of_not_eq_true hcont]
    simp only [if_neg hcont, hsame, List.map_nil, List.append_nil]
    rfl

/-- The last channel of a job ends its transmit side (R224). -/
theorem txChannelComplete_last {j : Nat} {ws : List RegWrite} (hcur : d.curJob = some j) (hlast : d.txChanIdx + 1 = s.numChannelsOf j)
    (hws : ws = if d.contCSActive = true then [.txcmd { d.cmdWord with cont := false }] else []) :
    txChannelComplete u (s.onUnit u m d p es) = .ok (s.onUnit u m { d with
        txDone := true, contCSActive := false
        cmdWord := if d.contCSActive = true then { d.cmdWord with cont := false } else d.cmdWord }
      (p.writes s.params.fifoSize s.freeCount ws) (es ++ ws.map (.regWrite u))) := by
  simp [txChannelComplete, currentJob_onUnit h hcur, State.isLastTxChannel, devAt_onUnit h, hlast, clearContCS_onUnit h hws]

/-- Another channel is followed by the job's next one (R224). -/
theorem txChannelComplete_next {j c : Nat} {cmd : CmdWord} {ws : List RegWrite} (hcur : d.curJob = some j)
    (hnext : d.txChanIdx + 1 < s.numChannelsOf j) (hidx : d.txChanIdx < 65535) (hc : c = s.chanOf j (d.txChanIdx + 1))
    (hlen : 0 < (s.chanAt c).length) (hcmd : cmd = chanCmd s.cfg j c d.contCSActive)
    (hws : ws = if cmd = d.cmdWord then [] else [.txcmd cmd]) :
    txChannelComplete u (s.onUnit u m d p es) = .ok (s.onUnit u m { d with
        txChanIdx := d.txChanIdx + 1, txRemaining := (s.chanAt c).length, sentFrames := 0, cmdWord := cmd }
      (p.writes s.params.fifoSize s.freeCount ws) (es ++ ws.map (.regWrite u))) := by
  have hup : countUp d.txChanIdx = .ok (d.txChanIdx + 1) := countUp_eq_ok.2 ⟨hidx, rfl⟩
  simp only [txChannelComplete, currentJob_onUnit h hcur, res_ok_bind, State.isLastTxChannel, devAt_onUnit h, onUnit_numChannelsOf,
    decide_eq_true_eq, if_neg hnext.ne, hup, setDev_onUnit]
  exact txChannelInit_next h hcur hc hlen hcmd hws

/-- The last channel of a job ends its receive side (R225). -/
theorem rxChannelComplete_last {j : Nat} (hcur : d.curJob = some j) (hlast : d.rxChanIdx + 1 = s.numChannelsOf j) :
    rxChannelComplete u (s.onUnit u m d p es) = .ok (s.onUnit u m { d with rxDone := true } p es) := by
  simp [rxChannelComplete, currentJob_onUnit h hcur, State.isLastRxChannel, devAt_onUnit h, hlast]

/-- Another channel is followed by the job's next one (R225). -/
theorem rxChannelComplete_next {j c : Nat} (hcur : d.curJob = some j) (hnext : d.rxChanIdx + 1 < s.numChannelsOf j)
    (hidx : d.rxChanIdx < 65535) (hc : c = s.chanOf j (d.rxChanIdx + 1)) (hlen : 0 < (s.chanAt c).length) :
    rxChannelComplete u (s.onUnit u m d p es) =
      .ok (s.onUnit u m { d with rxChanIdx := d.rxChanIdx + 1, rxRemaining := (s.chanAt c).length } p es) := by
  have hup : countUp d.rxChanIdx = .ok (d.rxChanIdx + 1) := countUp_eq_ok.2 ⟨hidx, rfl⟩
  simp only [rxChannelComplete, currentJob_onUnit h hcur, res_ok_bind, State.isLastRxChannel, devAt_onUnit h, onUnit_numChannelsOf,
    decide_eq_true_eq, if_neg hnext.ne, hup, setDev_onUnit]
  exact rxChannelInit_onUnit h hcur hc hlen

end

/-! One frame each way (R217, R223) -/

section
variable {s : State} {u j c : Nat} {v : Word} {m : Memory} {d : Dev} {p : Lpspi} {es : List Entry} (h : Alone s u)
  (hcur : d.curJob = some j)
include h hcur

section
variable (hc : c = s.chanOf j d.txChanIdx) (hsent : d.sentFrames < 65535) (hroom : p.txCount < s.params.fifoSize)
  (hv : txFrameValue (s.setMem m) c (s.widthOf c) ((s.chanAt c).length - d.txRemaining) = .ok v)
include hc hsent hroom hv

/-- A frame before the last of its channel. -/
theorem txWriteFrame_mid (hleft : 1 < d.txRemaining) : txWriteFrame u (s.onUnit u m d p es) =
    .ok (s.onUnit u m (d.sent 1) (p.write s.params.fifoSize s.freeCount (.txdata v)) (es ++ [.regWrite u (.txdata v)])) := by
  have hmore : (d.sent 1).txRemaining ≠ 0 := Nat.sub_ne_zero_of_lt hleft
  subst hc
  simp only [txWriteFrame, currentJob_onUnit h hcur, res_ok_bind, devAt_onUnit h, onUnit_chanOf, onUnit_cfg, channelAt_width,
    sendFrame_onUnit h (Nat.zero_lt_of_lt hleft) hsent hroom hv, if_neg hmore]

/-- The last frame of a channel completes it. -/
theorem txWriteFrame_last (hleft : d.txRemaining = 1) : txWriteFrame u (s.onUnit u m d p es) =
    txChannelComplete u (s.onUnit u m (d.sent 1) (p.write s.params.fifoSize s.freeCount (.txdata v))
      (es ++ [.regWrite u (.txdata v)])) := by
  have hnone : (d.sent 1).txRemaining = 0 := by rw [Dev.sent, hleft]
  subst hc
  simp only [txWriteFrame, currentJob_onUnit h hcur, res_ok_bind, devAt_onUnit h, onUnit_chanOf, onUnit_cfg, channelAt_width,
    sendFrame_onUnit h (hleft ▸ Nat.one_pos) hsent hroom hv, if_pos hnone]

end

section
variable {rest : List Word} (hc : c = s.chanOf j d.rxChanIdx) (hfifo : p.rxFifo = v :: rest) (hready : s.chanReady c = true)
include hc hfifo hready

/-- A frame before the last of its channel. -/
theorem rxReadFrame_mid (hleft : 1 < d.rxRemaining) (hlen : d.rxRemaining ≤ (s.chanAt c).length) :
    rxReadFrame u (s.onUnit u m d p es) =
      .ok (s.onUnit u (s.keepFrame c ((s.chanAt c).length - d.rxRemaining) v m) (d.received 1) { p with rxFifo := rest }
        (es ++ [.regRead u (.rxdata v)])) := by
  have hmore : (d.received 1).rxRemaining ≠ 0 := Nat.sub_ne_zero_of_lt hleft
  subst hc
  simp only [rxReadFrame, currentJob_onUnit h hcur, res_ok_bind, devAt_onUnit h, onUnit_chanOf, onUnit_cfg, channelAt_width,
    receiveFrame_onUnit h (Nat.zero_lt_of_lt hleft) hfifo hready hlen, if_neg hmore]

/-- The last frame of a channel completes it. -/
theorem rxReadFrame_last (hleft : d.rxRemaining = 1) : rxReadFrame u (s.onUnit u m d p es) =
    rxChannelComplete u (s.onUnit u (s.keepFrame c ((s.chanAt c).length - d.rxRemaining) v m) (d.received 1) { p with rxFifo := rest }
      (es ++ [.regRead u (.rxdata v)])) := by
  have hnone : (d.received 1).rxRemaining = 0 := by rw [Dev.received, hleft]
  obtain ⟨hpos, -⟩ := chanReady_iff.1 hready
  subst hc
  simp only [rxReadFrame, currentJob_onUnit h hcur, res_ok_bind, devAt_onUnit h, onUnit_chanOf, onUnit_cfg, channelAt_width,
    receiveFrame_onUnit h (hleft ▸ Nat.one_pos) hfifo hready (hleft ▸ hpos), if_pos hnone]

end

/-- The next `n` frames of a channel that has more. -/
theorem repeatN_txWriteFrame {n : Nat} (vs : Nat → Word) (hc : c = s.chanOf j d.txChanIdx) (hmore : n < d.txRemaining)
    (hlen : d.txRemaining ≤ (s.chanAt c).length) (hsent : d.sentFrames + n ≤ 65535) (hroom : n ≤ s.params.fifoSize - p.txCount)
    (hv : ∀ i, i < n → txFrameValue (s.setMem m) c (s.widthOf c) ((s.chanAt c).length - d.txRemaining + i) = .ok (vs i)) :
    repeatN (txWriteFrame u) n (s.onUnit u m d p es) =
      .ok (s.onUnit u m (d.sent n) (p.writes s.params.fifoSize s.freeCount ((List.range n).map fun i => .txdata (vs i)))
        (es ++ (List.range n).map fun i => .regWrite u (.txdata (vs i)))) := by
  induction n with
  | zero => simp [repeatN, Lpspi.writes, Dev.sent]
  | succ n ih =>
    have hfull := txCount_writes_txdata (free := s.freeCount) vs (Nat.le_of_succ_le hroom)
    have hidx : (s.chanAt c).length - (d.txRemaining - n) = (s.chanAt c).length - d.txRemaining + n := by omega
    have hleft : 1 < (d.sent n).txRemaining := Nat.lt_sub_of_add_lt (by omega)
    rw [repeatN_succ, ih (by omega) (by omega) (by omega) fun i hi => hv i (by omega), res_ok_bind,
      txWriteFrame_mid h (d := d.sent n) (v := vs n) hcur hc hsent (by rw [hfull]; omega)
        (by rw [Dev.sent, hidx]; exact hv n n.lt_succ_self) hleft,
      List.range_succ, List.map_append, List.map_append, writes_append, List.append_assoc]
    rfl

end

/-! The ends of a channel (R224, R225) -/

theorem Fit.channelCount_le {s : State} (h : Fit s) {j : Nat} (hj : j < s.cfg.numJobs) : s.numChannelsOf j ≤ 65535 := by
  obtain ⟨-, -, hjobs, -⟩ := cfgWellFormed_parts h.wf
  have hok := hjobs (s.cfg.jobAt j) (tget_mem s.cfg.jobs j hj)
  simp only [jobOk, Bool.and_eq_true, decide_eq_true_eq] at hok
  obtain ⟨⟨⟨⟨⟨-, hlen⟩, -⟩, -⟩, -⟩, -⟩ := hok
  exact hlen

/-- Settles O42. -/
theorem fifoChannelBoundaries : Obligations.FifoChannelBoundaries := by
  unfold Obligations.FifoChannelBoundaries
  intro s u j hcalm htables hinit hj hu hcur
  have hfit := fit_of_tablesOk htables hinit
  have halone : Alone s u := .of_tablesOk htables hinit (hu ▸ hfit.unitOf_lt hj) hcalm
  have hcount := hfit.channelCount_le hj
  refine ⟨fun c v hc hleft hsent hroom hv => ⟨fun ws hlast hws => ?txLast, fun ws c' cmd hnext hc' hlen hcmd hws => ?txNext⟩,
    fun c v rest hc hleft hready hmem hfifo => ⟨fun hlast => ?rxLast, fun c' hnext hc' hlen => ?rxNext⟩⟩
  case txLast =>
    have hframe := (txWriteFrame_last (es := []) halone hcur hc hsent hroom hv hleft).trans
      (txChannelComplete_last halone hcur hlast rfl)
    rw [onUnit_self] at hframe
    rw [hframe, hws]
    simp [State.onUnit, Dev.sent, hleft, Lpspi.writes]
  case txNext =>
    have hframe := (txWriteFrame_last (es := []) halone hcur hc hsent hroom hv hleft).trans
      (txChannelComplete_next halone hcur hnext (show (s.devAt u).txChanIdx < 65535 by omega) hc' hlen hcmd rfl)
    rw [onUnit_self] at hframe
    rw [hframe, hws]
    rfl
  case rxLast =>
    have hframe := (rxReadFrame_last (m := s.mem) (es := []) halone hcur hc hfifo hready hleft).trans
      (rxChannelComplete_last halone hcur hlast)
    rw [onUnit_self] at hframe
    exact ⟨_, hframe, storesFrame_keepFrame hmem _ _ _, by simp [State.onUnit, Dev.received, hleft]⟩
  case rxNext =>
    have hframe := (rxReadFrame_last (m := s.mem) (es := []) halone hcur hc hfifo hready hleft).trans
      (rxChannelComplete_next halone hcur hnext (show (s.devAt u).rxChanIdx < 65535 by omega) hc' hlen)
    rw [onUnit_self] at hframe
    exact ⟨_, hframe, storesFrame_keepFrame hmem _ _ _, by simp [State.onUnit, Dev.received]⟩

/-! The dispatch of `EV_FIFO` (41_engine_fifo.md R220 to R222) -/

theorem fifoServed_iff {s : State} {u : Nat} : s.fifoServed u = true ↔
    s.eventServed u = true ∧ (s.cfg.unitAt u).dmaUsed = false ∧ (s.devAt u).irqEnabled = true := by
  simp [State.fifoServed]

theorem eventServed_init {s : State} {u : Nat} (h : s.eventServed u = true) : s.drvInit = true := by
  simp only [State.eventServed, Bool.and_eq_true] at h
  obtain ⟨-, hinit, -⟩ := h
  exact hinit

section
variable {s : State} {unit : BitVec 4} (hcalm : s.undisturbed = true) (htables : s.tablesOk = true)
  (hserved : s.fifoServed unit.toNat = true)
include hcalm htables hserved

theorem Alone.of_fifoServed : Alone s unit.toNat := by
  obtain ⟨hevent, -⟩ := fifoServed_iff.1 hserved
  exact .of_tablesOk htables (eventServed_init hevent) (eventServed_lt hevent) hcalm

/-- An event that is served reads `FIFOSTAT` and dispatches on the counts it read. -/
theorem exec_evFifo {m : State}
    (hm : fifoDispatch unit.toNat (s.lpspiAt unit.toNat).txCount (s.lpspiAt unit.toNat).rxCount
      (s.onUnit unit.toNat s.mem (s.devAt unit.toNat) (s.lpspiAt unit.toNat)
        [.regRead unit.toNat (.fifostat (s.lpspiAt unit.toNat).txCount (s.lpspiAt unit.toNat).rxCount)]) = .ok m) :
    exec (.evFifo unit) s =
      outcome (finishIfDone s.boundary (Ctx.foreground.enterHandler unit.toNat) unit.toNat m) := by
  have hread := readFifoStat_onUnit (m := s.mem) (d := s.devAt unit.toNat) (p := s.lpspiAt unit.toNat) (es := [])
    (Alone.of_fifoServed hcalm htables hserved)
  rw [onUnit_self, List.nil_append] at hread
  rw [show exec (.evFifo unit) s = execEvFifo unit s from rfl, execEvFifo, handleFifo, if_pos hserved, isrFifoRx, hread, res_ok_bind]
  simp only [hm, res_ok_bind]

end

/-- While one side of a job is not done nothing is finished. -/
theorem finishIfDone_txOpen {b : Boundary} {ctx : Ctx} {u : Nat} {s : State} (hopen : (s.devAt u).txDone = false) :
    finishIfDone b ctx u s = .ok s := if_neg (by simp [hopen])

section
variable {s : State} {u rc : Nat} {m m' : Memory} {d d' : Dev} {p p' : Lpspi} {es es' : List Entry} (h : Alone s u)
  (hrx : d.rxDone = false) (hrc : 0 < rc) (hin : rxReadFrame u (s.onUnit u m d p es) = .ok (s.onUnit u m' d' p' es'))
include h hrx hrc hin

/-- A dispatch on a master whose transmit side is open sends a frame for the one it received (R221). -/
theorem masterDispatch_exchange (htx : d'.txDone = false) :
    masterDispatch u rc (s.onUnit u m d p es) = txWriteFrame u (s.onUnit u m' d' p' es') := by
  rw [masterDispatch, devAt_onUnit h, if_pos ⟨hrx, hrc⟩, hin, res_ok_bind, devAt_onUnit h, if_pos htx]

/-- Once all frames are sent it only receives. -/
theorem masterDispatch_receive (htx : d'.txDone = true) :
    masterDispatch u rc (s.onUnit u m d p es) = .ok (s.onUnit u m' d' p' es') := by
  rw [masterDispatch, devAt_onUnit h, if_pos ⟨hrx, hrc⟩, hin, res_ok_bind, devAt_onUnit h, if_neg (by simp [htx])]

end

theorem fifoDispatch_master {s : State} {u tc rc : Nat} {m : Memory} {d : Dev} {p : Lpspi} {es : List Entry}
    (hmaster : (s.cfg.unitAt u).slave = false) :
    fifoDispatch u tc rc (s.onUnit u m d p es) = masterDispatch u rc (s.onUnit u m d p es) := if_neg (by simp [hmaster])

theorem rxCount_pos {p : Lpspi} {v : Word} {rest : List Word} (hfifo : p.rxFifo = v :: rest) : 0 < p.rxCount := by
  rw [Lpspi.rxCount, hfifo]; exact Nat.succ_pos _

/-- Settles O51. -/
theorem fifoEventMovesOneFrame : Obligations.FifoEventMovesOneFrame := by
  unfold Obligations.FifoEventMovesOneFrame
  intro s unit j cr ct v rest hcalm htables hmem hserved hmid hfifo
  obtain ⟨hmaster, hcur, htx, hrx, hcr, hct, hrxLeft, hrxLen, htxLeft, htxLen, hready, hready', hsent, hroom⟩ := hmid
  have halone := Alone.of_fifoServed hcalm htables hserved
  obtain ⟨w, hw⟩ := txFrameValue_of_chanReady (i := s.txIndex unit.toNat ct) hready' (by rw [State.txIndex]; omega)
    (s.keepFrame cr (s.rxIndex unit.toNat cr) v s.mem)
  have hexec := exec_evFifo hcalm htables hserved ((fifoDispatch_master hmaster).trans
    ((masterDispatch_exchange halone hrx (rxCount_pos hfifo) (rxReadFrame_mid halone hcur hcr hfifo hready hrxLeft hrxLen) htx).trans
      (txWriteFrame_mid halone hcur hct hsent hroom hw htxLeft)))
  rw [finishIfDone_txOpen (by rw [devAt_onUnit halone]; exact htx), outcome_ok,
    write_txdata_of_room (p := { s.lpspiAt unit.toNat with rxFifo := rest }) hroom] at hexec
  exact ⟨_, w, hexec, storesFrame_keepFrame hmem _ _ _, hw, rfl⟩

/-! Several frames of a buffer (20_memory.md R90, R95) -/

/-- Memory `m` after the frames `vs` were stored for channel `c`, from index `i` on. -/
def State.keepFrames (s : State) (c : Nat) : Nat → List Word → Memory → Memory
  | _, [], m => m
  | i, v :: vs, m => s.keepFrames c (i + 1) vs (s.keepFrame c i v m)

section
variable {s : State} {c : Nat}

theorem readByte_keepFrame_outside {i x : Nat} (hx : s.outsideFrame c i x) (v : Word) (m : Memory) :
    readByte (s.keepFrame c i v m) x = readByte m x := by
  obtain hdrop | ⟨p, hdiscard, hptr⟩ := keeps_or_drops s c
  · rw [keepFrame_dropped hdrop]
  · rw [keepFrame_stored hdiscard hptr]; exact readByte_memWrite_outside (hx p hdiscard hptr)

theorem readByte_keepFrames_outside {i x : Nat} {vs : List Word} {m : Memory} (hx : ∀ k, k < vs.length → s.outsideFrame c (i + k) x) :
    readByte (s.keepFrames c i vs m) x = readByte m x := by
  induction vs generalizing i m with
  | nil => rfl
  | cons v vs ih =>
    have hrest : ∀ k, k < vs.length → s.outsideFrame c (i + 1 + k) x := fun k hk => by
      rw [Nat.add_assoc, Nat.add_comm 1 k]; exact hx (k + 1) (Nat.succ_lt_succ hk)
    rw [State.keepFrames, ih hrest, readByte_keepFrame_outside (i := i) (hx 0 (Nat.succ_pos _))]

theorem memRead_congr {m m' : Memory} {a n : Nat} (h : ∀ k, k < n → readByte m (a + k) = readByte m' (a + k)) :
    memRead m a n = memRead m' a n := by
  induction n generalizing a with
  | zero => rfl
  | succ n ih =>
    have hrest : ∀ k, k < n → readByte m (a + 1 + k) = readByte m' (a + 1 + k) := fun k hk => by
      rw [Nat.add_assoc, Nat.add_comm 1 k]; exact h (k + 1) (Nat.succ_lt_succ hk)
    rw [memRead, memRead, ih hrest, show readByte m a = readByte m' a from h 0 n.succ_pos]

/-- Later frames of a buffer lie above earlier ones. -/
theorem frameAddr_add_bpf_le {p : Word} {w : Width} {i i' : Nat} (h : i < i') : frameAddr p w i + bpf w ≤ frameAddr p w i' := by
  have hmul : (i + 1) * bpf w ≤ i' * bpf w := Nat.mul_le_mul_right _ h
  rw [Nat.succ_mul] at hmul
  unfold frameAddr
  omega

/-- Each frame stored is read back at its place: those stored after it lie above it. -/
theorem memRead_keepFrames {p : Word} {i k : Nat} {vs : List Word} {m : Memory} (hm : Memory.wf m = true)
    (hdiscard : (s.chanAt c).discardRx = false) (hptr : (s.chanAt c).rxPtr = some p) (hk : k < vs.length) :
    memRead (s.keepFrames c i vs m) (frameAddr p (s.widthOf c) (i + k)) (bpf (s.widthOf c)) =
      (vs.getD k 0).toNat % 2 ^ (s.widthOf c).bits := by
  induction vs generalizing i k m with
  | nil => cases hk
  | cons v vs ih =>
    cases k with
    | zero =>
      have habove : ∀ x, x < bpf (s.widthOf c) → ∀ l, l < vs.length →
          s.outsideFrame c (i + 1 + l) (frameAddr p (s.widthOf c) i + x) := fun x hx l _ q _ hq => by
        obtain rfl : p = q := Option.some.inj (hptr.symm.trans hq)
        have hle := frameAddr_add_bpf_le (p := p) (w := s.widthOf c) (show i < i + 1 + l by omega)
        omega
      refine (memRead_congr fun x hx => readByte_keepFrames_outside (habove x hx)).trans ?_
      rw [keepFrame_stored hdiscard hptr]
      exact memRead_memWrite_truncW hm _ _ _
    | succ k =>
      rw [State.keepFrames, show i + (k + 1) = i + 1 + k by omega, List.getD_cons_succ]
      exact ih (keepFrame_wf hm _ _) (Nat.lt_of_succ_lt_succ hk)

end

/-- Frames of a channel that can be transferred, one after the other. -/
theorem txFrameValues_of_chanReady {s : State} {c i n : Nat} (hready : s.chanReady c = true) (hlen : i + n ≤ (s.chanAt c).length)
    (m : Memory) : ∃ vs : Nat → Word, ∀ k, k < n → txFrameValue (s.setMem m) c (s.widthOf c) (i + k) = .ok (vs k) := by
  have hload : ∀ k, ∃ v, k < n → txFrameValue (s.setMem m) c (s.widthOf c) (i + k) = .ok v := fun k => by
    by_cases hk : k < n
    · obtain ⟨v, hv⟩ := txFrameValue_of_chanReady (i := i + k) hready (by omega) m
      exact ⟨v, fun _ => hv⟩
    · exact ⟨0, fun hlt => absurd hlt hk⟩
  choose vs hvs using hload
  exact ⟨vs, hvs⟩

/-! The dispatch on a slave unit (R222) -/

section
variable {s : State} {u j : Nat} {m : Memory} {d : Dev} {p : Lpspi} {es : List Entry} {vs rest : List Word} (h : Alone s u)
  (hfifo : p.rxFifo = vs ++ rest) {n : Nat} (hn : vs.length = n)
include h hfifo hn

/-- In the middle of a channel the oldest received frames are stored. -/
theorem repeatN_slaveDrain_store {c : Nat} (hcur : d.curJob = some j) (hrx : d.rxDone = false) (hc : c = s.chanOf j d.rxChanIdx)
    (hready : s.chanReady c = true) (hmore : n < d.rxRemaining) (hlen : d.rxRemaining ≤ (s.chanAt c).length) :
    repeatN (slaveDrain u) n (s.onUnit u m d p es) =
      .ok (s.onUnit u (s.keepFrames c ((s.chanAt c).length - d.rxRemaining) vs m) (d.received n) { p with rxFifo := rest }
        (es ++ vs.map fun v => .regRead u (.rxdata v))) := by
  subst hn
  induction vs generalizing m d p es with
  | nil =>
    rw [List.nil_append] at hfifo
    simp [repeatN, State.keepFrames, Dev.received, ← hfifo]
  | cons v vs ih =>
    rw [List.length_cons] at hmore
    have hleft : (d.received 1).rxRemaining = d.rxRemaining - 1 := rfl
    have hidx : (s.chanAt c).length - (d.rxRemaining - 1) = (s.chanAt c).length - d.rxRemaining + 1 := by omega
    have hboth : (d.received 1).received vs.length = d.received (vs.length + 1) := by
      simp only [Dev.received, Nat.sub_sub, Nat.add_comm 1]
    have hrest := ih (m := s.keepFrame c ((s.chanAt c).length - d.rxRemaining) v m) (d := d.received 1)
      (p := { p with rxFifo := vs ++ rest }) (es := es ++ [.regRead u (.rxdata v)]) rfl hcur hrx hc (by omega) (by omega)
    rw [List.length_cons, repeatN, slaveDrain, devAt_onUnit h, if_pos hrx,
      rxReadFrame_mid h hcur hc hfifo hready (by omega) hlen]
    refine hrest.trans ?_
    rw [hleft, hidx, hboth, State.keepFrames, List.map_cons, List.append_assoc]
    rfl

/-- Once the last channel is full they are dropped. -/
theorem repeatN_slaveDrain_drop (hrx : d.rxDone = true) : repeatN (slaveDrain u) n (s.onUnit u m d p es) =
    .ok (s.onUnit u m d { p with rxFifo := rest } (es ++ vs.map fun v => .regRead u (.rxdata v))) := by
  subst hn
  induction vs generalizing p es with
  | nil =>
    rw [List.nil_append] at hfifo
    simp [repeatN, ← hfifo]
  | cons v vs ih =>
    have hrest := ih (p := { p with rxFifo := vs ++ rest }) (es := es ++ [.regRead u (.rxdata v)]) rfl
    rw [List.length_cons, repeatN, slaveDrain, devAt_onUnit h, if_neg (by simp [hrx]), readRxData_onUnit h hfifo, List.map_cons]
    refine hrest.trans ?_
    rw [List.append_assoc]
    rfl

omit hfifo hn in
/-- A dispatch drains the receive FIFO, then fills the transmit FIFO while its side is open. -/
theorem fifoDispatch_slave {tc rc n r : Nat} {m' : Memory} {d' : Dev} {p' : Lpspi} {es' : List Entry}
    (hslave : (s.cfg.unitAt u).slave = true) (hcur : d.curJob = some j)
    (hcount : n = min rc ((s.cfg.channelAt (s.chanOf j 0)).wmRx + 1))
    (hdrain : repeatN (slaveDrain u) n (s.onUnit u m d p es) = .ok (s.onUnit u m' d' p' es')) (htx : d'.txDone = false)
    (hroom : r = min (s.params.fifoSize - tc) d'.txRemaining) :
    fifoDispatch u tc rc (s.onUnit u m d p es) = repeatN (txWriteFrame u) r (s.onUnit u m' d' p' es') := by
  have hwm : wmRxOfJob j (s.onUnit u m d p es) = (s.cfg.channelAt (s.chanOf j 0)).wmRx := rfl
  have hunit : ((s.onUnit u m d p es).cfg.unitAt u).slave = true := hslave
  rw [fifoDispatch, if_pos hunit, slaveDispatch, currentJob_onUnit h hcur, res_ok_bind, hwm, ← hcount, hdrain, res_ok_bind,
    devAt_onUnit h, if_pos htx, onUnit_params, hroom]

end

/-- Settles O53. -/
theorem slaveDispatch_spec : Obligations.SlaveDispatch := by
  unfold Obligations.SlaveDispatch
  intro s unit hcalm htables hserved
  have halone := Alone.of_fifoServed hcalm htables hserved
  refine ⟨fun j cr ct m r hmem hmid => ?middle, fun j drop hslave hcur hrx htx hfull hdrop => ?overflow⟩
  case middle =>
    obtain ⟨hslave, hcur, htx, hrx, hcr, hct, hm, hrxMore, hrxLen, hr, htxMore, htxLen, hready, hready', hsent⟩ := hmid
    have hfifo := (List.take_append_drop m (s.lpspiAt unit.toNat).rxFifo).symm
    have hlen : ((s.lpspiAt unit.toNat).rxFifo.take m).length = m := List.length_take_of_le (by omega)
    have hspace : r ≤ s.params.fifoSize - (s.lpspiAt unit.toNat).txCount := hr ▸ Nat.min_le_left _ _
    obtain ⟨ws, hws⟩ := txFrameValues_of_chanReady (i := s.txIndex unit.toNat ct) (n := r) hready' (by rw [State.txIndex]; omega)
      (s.keepFrames cr (s.rxIndex unit.toNat cr) ((s.lpspiAt unit.toNat).rxFifo.take m) s.mem)
    have hexec := exec_evFifo hcalm htables hserved
      ((fifoDispatch_slave halone hslave hcur hm (repeatN_slaveDrain_store halone hfifo hlen hcur hrx hcr hready hrxMore hrxLen)
        htx hr).trans (repeatN_txWriteFrame (d := (s.devAt unit.toNat).received m) halone hcur ws hct htxMore htxLen hsent
          hspace hws))
    rw [finishIfDone_txOpen (by rw [devAt_onUnit halone]; exact htx), outcome_ok,
      writes_txdata_of_room (p := { s.lpspiAt unit.toNat with rxFifo := (s.lpspiAt unit.toNat).rxFifo.drop m }) ws hspace] at hexec
    refine ⟨_, ws, hexec, fun i p hi hdiscard hptr => ?stored, fun x hx => ?others, hws, rfl⟩
    case stored =>
      refine (memRead_keepFrames hmem hdiscard hptr (by rwa [hlen])).trans ?_
      rw [List.getD_eq_getElem?_getD, List.getD_eq_getElem?_getD, List.getElem?_take_of_lt hi]
    case others => exact readByte_keepFrames_outside (by rwa [hlen])
  case overflow =>
    have hfifo := (List.take_append_drop drop (s.lpspiAt unit.toNat).rxFifo).symm
    have hlen : ((s.lpspiAt unit.toNat).rxFifo.take drop).length = drop := List.length_take_of_le (by omega)
    have hexec := exec_evFifo hcalm htables hserved
      ((fifoDispatch_slave (r := 0) halone hslave hcur hdrop (repeatN_slaveDrain_drop halone hfifo hlen hrx) htx (by omega)).trans rfl)
    rw [finishIfDone_txOpen (by rw [devAt_onUnit halone]; exact htx), outcome_ok] at hexec
    rw [hexec]
    simp [State.onUnit, State.devAt, set_tget_self]

/-- All the frames that are left of a channel, which the last of them completes. -/
theorem repeatN_txWriteFrame_all {s : State} {u j c n : Nat} {m : Memory} {d : Dev} {p : Lpspi} {es : List Entry} (h : Alone s u)
    (hcur : d.curJob = some j) (vs : Nat → Word) (hc : c = s.chanOf j d.txChanIdx) (hall : n = d.txRemaining) (hpos : 0 < n)
    (hlen : d.txRemaining ≤ (s.chanAt c).length) (hsent : d.sentFrames + n ≤ 65535) (hroom : n ≤ s.params.fifoSize - p.txCount)
    (hv : ∀ i, i < n → txFrameValue (s.setMem m) c (s.widthOf c) ((s.chanAt c).length - d.txRemaining + i) = .ok (vs i)) :
    repeatN (txWriteFrame u) n (s.onUnit u m d p es) = txChannelComplete u (s.onUnit u m (d.sent n)
      (p.writes s.params.fifoSize s.freeCount ((List.range n).map fun i => .txdata (vs i)))
      (es ++ (List.range n).map fun i => .regWrite u (.txdata (vs i)))) := by
  obtain ⟨k, rfl⟩ := Nat.exists_eq_succ_of_ne_zero hpos.ne'
  have hfull := txCount_writes_txdata (free := s.freeCount) vs (Nat.le_of_succ_le hroom)
  have hidx : (s.chanAt c).length - (d.txRemaining - k) = (s.chanAt c).length - d.txRemaining + k := by omega
  have hleft : (d.sent k).txRemaining = 1 := show d.txRemaining - k = 1 by omega
  rw [repeatN_succ, repeatN_txWriteFrame h hcur vs hc (by omega) hlen (by omega) (by omega) fun i hi => hv i (by omega), res_ok_bind,
    txWriteFrame_last h (d := d.sent k) (v := vs k) hcur hc hsent (by rw [hfull]; omega)
      (by rw [Dev.sent, hidx]; exact hv k k.lt_succ_self) hleft,
    List.range_succ, List.map_append, List.map_append, writes_append, List.append_assoc]
  rfl

/-! The start of a job (R211 to R213) -/

/-- `Dev[u]` at the start of job `j` (R211). -/
def Dev.entered (d : Dev) (j : Nat) : Dev :=
  { d with curJob := some j, txChanIdx := 0, rxChanIdx := 0, txDone := false, rxDone := false, contCSActive := false }

/-- `Dev[u]` before the first frame of job `j`, its first channel initialised (R214, R216). -/
def State.devBeforeFrames (s : State) (u j : Nat) : Dev :=
  { (s.devAt u).entered j with
    txRemaining := (s.chanAt (s.chanOf j 0)).length, rxRemaining := (s.chanAt (s.chanOf j 0)).length, sentFrames := 0
    cmdWord := chanCmd s.cfg j (s.chanOf j 0) (s.cfg.jobAt j).dev.contCS, contCSActive := (s.cfg.jobAt j).dev.contCS }

/-- The register writes before the first frame of job `j`. -/
def State.startWrites (s : State) (j : Nat) : List RegWrite :=
  [.clkcfg (s.cfg.jobAt j).dev.clockTiming,
    .fifoctrl (s.cfg.channelAt (s.chanOf j 0)).wmTx (s.cfg.channelAt (s.chanOf j 0)).wmRx,
    .txcmd (chanCmd s.cfg j (s.chanOf j 0) (s.cfg.jobAt j).dev.contCS)]

/-- The machine in the middle of the start of job `j` on unit `u`: the register writes `ws` are made and `Dev[u]` is `d`. -/
def State.starting (s : State) (u j : Nat) (d : Dev) (ws : List RegWrite) : State :=
  s.onUnit u s.mem d ((s.lpspiAt u).writes s.params.fifoSize s.freeCount ws)
    (notice (s.cfg.jobAt j).startNotif .jobStart j ++ ws.map (.regWrite u))

theorem starting_append (s : State) (u j : Nat) (d : Dev) (ws ws' : List RegWrite) :
    s.onUnit u s.mem d (((s.lpspiAt u).writes s.params.fifoSize s.freeCount ws).writes s.params.fifoSize s.freeCount ws')
      (notice (s.cfg.jobAt j).startNotif .jobStart j ++ ws.map (.regWrite u) ++ ws'.map (.regWrite u)) =
      s.starting u j d (ws ++ ws') := by
  rw [State.starting, writes_append, List.map_append, List.append_assoc]

theorem jobStart_overlapping {s : State} {j : Nat} (h : s.buffersOverlap j = true) :
    jobStart j s = .error (.refused .overlappingBuffers) := if_pos h

section
variable {s : State} {u j : Nat} (h : Alone s u) (hu : u = s.unitOf j) (hbuf : s.buffersOverlap j = false)
include h hu hbuf

/-- The start notification, `CLKCFG` and the job's start in `Dev[u]`; then the start on the unit's path. -/
theorem jobStart_eq {t : State} (ht : t = s.onUnit u s.mem ((s.devAt u).entered j)
      ((s.lpspiAt u).write s.params.fifoSize s.freeCount (.clkcfg (s.cfg.jobAt j).dev.clockTiming))
      (notice (s.cfg.jobAt j).startNotif .jobStart j ++ [.regWrite u (.clkcfg (s.cfg.jobAt j).dev.clockTiming)])) :
    jobStart j s = if (s.cfg.unitAt u).dmaUsed = true then dmaJobStart u t else fifoJobStart u t := by
  have hstart := notify_onUnit s u s.mem (s.devAt u) (s.lpspiAt u) [] (s.cfg.jobAt j).startNotif .jobStart j
  rw [onUnit_self, List.nil_append] at hstart
  subst ht
  simp only [jobStart, if_neg (Bool.eq_false_iff.1 hbuf), hstart, ← hu, regWrite_onUnit (w := .clkcfg _) h rfl,
    res_ok_bind, enterJob, devAt_onUnit h, setDev_onUnit, onUnit_cfg, Dev.entered]

variable (hdma : (s.cfg.unitAt u).dmaUsed = false)
include hdma

/-- A FIFO unit initialises the first channel both ways, primes its frames and, in `INTERRUPT` mode, switches the interrupt on
(R213). -/
theorem jobStart_fifo {n : Nat} {d : Dev} {ws : List RegWrite} (hlen : 0 < (s.chanAt (s.chanOf j 0)).length)
    (hn : n = if (s.cfg.unitAt u).slave = true then min (s.chanAt (s.chanOf j 0)).length s.params.fifoSize else 1)
    (hframes : repeatN (txWriteFrame u) n (s.starting u j (s.devBeforeFrames u j) (s.startWrites j)) = .ok (s.starting u j d ws)) :
    jobStart j s = .ok (if d.asyncMode = .interrupt then irqOn u (s.starting u j d ws) else s.starting u j d ws) := by
  have hinit := txChannelInit_first (m := s.mem) (d := (s.devAt u).entered j)
    (p := (s.lpspiAt u).write s.params.fifoSize s.freeCount (.clkcfg (s.cfg.jobAt j).dev.clockTiming))
    (es := notice (s.cfg.jobAt j).startNotif .jobStart j ++ [.regWrite u (.clkcfg (s.cfg.jobAt j).dev.clockTiming)]) h rfl rfl hlen
  have hbefore : rxChannelInit u (s.starting u j { s.devBeforeFrames u j with rxRemaining := (s.devAt u).rxRemaining } (s.startWrites j)) =
      .ok (s.starting u j (s.devBeforeFrames u j) (s.startWrites j)) := rxChannelInit_onUnit h rfl rfl hlen
  have hprime : primeCount u (s.starting u j (s.devBeforeFrames u j) (s.startWrites j)) = n := by
    rw [primeCount, State.starting, devAt_onUnit h, hn]
    rfl
  have hdev : (s.starting u j d ws).devAt u = d := devAt_onUnit h
  rw [List.append_assoc] at hinit
  rw [jobStart_eq h hu hbuf rfl, if_neg (by simp [hdma]), fifoJobStart, hinit, res_ok_bind]
  refine (congrArg (· >>= _) hbefore).trans ?_
  simp only [res_ok_bind, hprime, hframes, hdev]

end

/-- The interrupt is switched on in `INTERRUPT` mode only (R218). -/
theorem irqOn_of_interrupt {s : State} {u : Nat} {m : Memory} {d : Dev} {p : Lpspi} {es : List Entry} (h : Alone s u) :
    (if d.asyncMode = .interrupt then irqOn u (s.onUnit u m d p es) else s.onUnit u m d p es) =
      s.onUnit u m { d with irqEnabled := d.irqEnabled || decide (d.asyncMode = .interrupt) } p
        (es ++ if d.asyncMode = .interrupt then [.irqEnable u true] else []) := by
  by_cases hmode : d.asyncMode = .interrupt
  · simp [hmode, irqOn_onUnit h]
  · simp [hmode]

section
variable {s : State} {u j n : Nat} (h : Alone s u) (hready : s.chanReady (s.chanOf j 0) = true)
  (hroom : (s.lpspiAt u).txCount + n ≤ s.params.fifoSize) {vs : Nat → Word}
  (hvs : ∀ i, i < n → txFrameValue s (s.chanOf j 0) (s.widthOf (s.chanOf j 0)) i = .ok (vs i))

theorem txCount_startWrites (s : State) (u j : Nat) :
    ((s.lpspiAt u).writes s.params.fifoSize s.freeCount (s.startWrites j)).txCount = (s.lpspiAt u).txCount :=
  txCount_write_txcmd (fifoSize := s.params.fifoSize) (free := s.freeCount)
    (p := ((s.lpspiAt u).write s.params.fifoSize s.freeCount _).write s.params.fifoSize s.freeCount _) _

include h hready hroom hvs

/-- The first channel has more frames than go out at the start. -/
theorem firstFrames_more (hmore : n < (s.chanAt (s.chanOf j 0)).length) :
    repeatN (txWriteFrame u) n (s.starting u j (s.devBeforeFrames u j) (s.startWrites j)) =
      .ok (s.starting u j ((s.devBeforeFrames u j).sent n) (s.startWrites j ++ (List.range n).map fun i => .txdata (vs i))) := by
  obtain ⟨-, hlen, -⟩ := chanReady_iff.1 hready
  rw [State.starting, repeatN_txWriteFrame (d := s.devBeforeFrames u j) h rfl vs rfl hmore le_rfl (show 0 + n ≤ 65535 by omega)
    (by rw [txCount_startWrites]; omega) fun i hi => by simpa [State.devBeforeFrames, Dev.entered, State.setMem] using hvs i hi,
    ← starting_append, List.map_map]
  rfl

/-- The first channel has no more frames than go out at the start. -/
theorem firstFrames_all (hall : n = (s.chanAt (s.chanOf j 0)).length) :
    repeatN (txWriteFrame u) n (s.starting u j (s.devBeforeFrames u j) (s.startWrites j)) =
      txChannelComplete u
        (s.starting u j ((s.devBeforeFrames u j).sent n) (s.startWrites j ++ (List.range n).map fun i => .txdata (vs i))) := by
  obtain ⟨hpos, hlen, -⟩ := chanReady_iff.1 hready
  rw [State.starting, repeatN_txWriteFrame_all (d := s.devBeforeFrames u j) h rfl vs rfl hall (hall ▸ hpos) le_rfl
    (show 0 + n ≤ 65535 by omega) (by rw [txCount_startWrites]; omega)
    fun i hi => by simpa [State.devBeforeFrames, Dev.entered, State.setMem] using hvs i hi,
    ← starting_append, List.map_map]
  rfl

end

section
variable {s : State} {u j : Nat} {d : Dev} {ws after : List RegWrite} (h : Alone s u) (hcur : d.curJob = some j)
include h hcur

/-- The frames at the start were the whole job: the transmit side is done. -/
theorem starting_complete_last (hlast : d.txChanIdx + 1 = s.numChannelsOf j)
    (hafter : after = if d.contCSActive = true then [.txcmd { d.cmdWord with cont := false }] else []) :
    txChannelComplete u (s.starting u j d ws) = .ok (s.starting u j { d with
        txDone := true, contCSActive := false
        cmdWord := if d.contCSActive = true then { d.cmdWord with cont := false } else d.cmdWord } (ws ++ after)) := by
  rw [← starting_append]
  exact txChannelComplete_last h hcur hlast hafter

/-- The frames at the start were the whole first channel: the job goes on to its second one. -/
theorem starting_complete_first {c : Nat} {cmd : CmdWord} (hfirst : d.txChanIdx = 0) (hnext : 1 < s.numChannelsOf j)
    (hc : c = s.chanOf j 1) (hlen : 0 < (s.chanAt c).length) (hcmd : cmd = chanCmd s.cfg j c d.contCSActive)
    (hafter : after = if cmd = d.cmdWord then [] else [.txcmd cmd]) :
    txChannelComplete u (s.starting u j d ws) = .ok (s.starting u j { d with
        txChanIdx := 1, txRemaining := (s.chanAt c).length, sentFrames := 0, cmdWord := cmd } (ws ++ after)) := by
  have hcomplete := txChannelComplete_next (m := s.mem)
    (p := (s.lpspiAt u).writes s.params.fifoSize s.freeCount ws)
    (es := notice (s.cfg.jobAt j).startNotif .jobStart j ++ ws.map (.regWrite u)) h hcur (by rwa [hfirst]) (by simp [hfirst])
    (by rwa [hfirst]) hlen hcmd hafter
  rw [hfirst] at hcomplete
  rw [← starting_append]
  exact hcomplete

end

theorem jobReady_iff {s : State} {j : Nat} : s.jobReady j = true ↔ (s.cfg.jobAt j).channels ≠ [] ∧ s.buffersOverlap j = false ∧
    ∀ c ∈ (s.cfg.jobAt j).channels, s.chanReady c = true := by
  simp [State.jobReady]

theorem chanReady_of_jobReady {s : State} {j k : Nat} (h : s.jobReady j = true) (hk : k < s.numChannelsOf j) :
    s.chanReady (s.chanOf j k) = true := by
  obtain ⟨-, -, hall⟩ := jobReady_iff.1 h
  exact hall _ (tget_mem _ _ hk)

/-- Settles O41: the start up to the frames (R211 to R218), then by whether they leave frames, end the job or end its
first channel (R224). -/
theorem fifoJobStart_spec : Obligations.FifoJobStart := by
  unfold Obligations.FifoJobStart
  intro s u j c n cont vs ws hcalm htables hinit hj hu hdma hready hc hcont hn hroom hvs hws
  subst hc hcont
  have hfit := fit_of_tablesOk htables hinit
  have halone : Alone s u := .of_tablesOk htables hinit (hu ▸ hfit.unitOf_lt hj) hcalm
  obtain ⟨hchannels, hbuf, -⟩ := jobReady_iff.1 hready
  have hcount : 0 < s.numChannelsOf j := List.length_pos_of_ne_nil hchannels
  have hchan := chanReady_of_jobReady hready hcount
  obtain ⟨hlen, -⟩ := chanReady_iff.1 hchan
  have hle : n ≤ (s.chanAt (s.chanOf j 0)).length := by rw [hn]; split <;> omega
  have hstart : ∀ {d : Dev} {after : List RegWrite},
      repeatN (txWriteFrame u) n (s.starting u j (s.devBeforeFrames u j) (s.startWrites j)) = .ok (s.starting u j d (ws ++ after)) →
      d.asyncMode = (s.devAt u).asyncMode → d.irqEnabled = (s.devAt u).irqEnabled →
      jobStart j s = .ok { s with
        dev := s.dev.set u { d with irqEnabled := (s.devAt u).irqEnabled || decide ((s.devAt u).asyncMode = .interrupt) }
        lpspi := s.lpspi.set u ((s.lpspiAt u).writes s.params.fifoSize s.freeCount (ws ++ after))
        trace := s.trace ++ notice (s.cfg.jobAt j).startNotif .jobStart j ++ (ws ++ after).map (.regWrite u) ++
          (if (s.devAt u).asyncMode = .interrupt then [.irqEnable u true] else []) } := fun {d after} hframes hmode hirq => by
    rw [jobStart_fifo halone hu hbuf hdma hlen hn hframes, State.starting, irqOn_of_interrupt halone, hmode, hirq]
    simp only [State.onUnit, List.append_assoc]
  obtain hmore | hall := hle.lt_or_eq
  · have hframes := firstFrames_more halone hchan hroom hvs hmore
    have hrun := hstart (d := (s.devBeforeFrames u j).sent n) (after := []) (by rw [hframes, hws, List.append_nil]; rfl) rfl rfl
    refine ⟨_, _, _, hrun, rfl, fun _ => ⟨rfl, ?_⟩, fun hall => absurd hall hmore.ne, fun _ hall => absurd hall hmore.ne⟩
    simp [Dev.sent, State.devBeforeFrames, Dev.entered]
  · have hframes := firstFrames_all halone hchan hroom hvs hall
    have hsent : (s.devBeforeFrames u j).sent n = { s.devAt u with
        curJob := some j, txChanIdx := 0, rxChanIdx := 0, txDone := false, rxDone := false
        txRemaining := 0, rxRemaining := (s.chanAt (s.chanOf j 0)).length, sentFrames := n
        cmdWord := chanCmd s.cfg j (s.chanOf j 0) (s.cfg.jobAt j).dev.contCS, contCSActive := (s.cfg.jobAt j).dev.contCS } := by
      simp [Dev.sent, State.devBeforeFrames, Dev.entered, hall]
    rw [hsent] at hframes
    rw [State.startWrites, ← hws] at hframes
    obtain hlast | hnext := (Nat.succ_le_of_lt hcount).eq_or_lt'
    · have hrun := hstart (hframes.trans (starting_complete_last halone rfl hlast.symm rfl)) rfl rfl
      refine ⟨_, _, _, hrun, rfl, fun hmore => absurd hall hmore.ne, fun _ _ => ⟨rfl, ?_⟩, fun _ _ hmore => absurd hlast hmore.ne'⟩
      cases (s.cfg.jobAt j).dev.contCS <;> rfl
    · obtain ⟨hnextLen, -⟩ := chanReady_iff.1 (chanReady_of_jobReady hready hnext)
      have hrun := hstart (hframes.trans (starting_complete_first halone rfl rfl hnext rfl hnextLen rfl rfl)) rfl rfl
      refine ⟨_, _, _, hrun, rfl, fun hmore => absurd hall hmore.ne, fun _ hone => absurd hone hnext.ne', ?_⟩
      rintro c' - - rfl
      exact ⟨rfl, rfl⟩

/-! The end of a job (41_engine_fifo.md R236, 45_scheduler.md R345) -/

theorem notify_eq (on : Bool) (k : NotifKind) (i : Nat) (s : State) :
    notify on k i s = { s with trace := s.trace ++ notice on k i } := by
  cases on <;> simp [notify, notice, State.emit]

theorem irqOff_onUnit {s : State} {u : Nat} {m : Memory} {d : Dev} {p : Lpspi} {es : List Entry} (h : Alone s u)
    (hirq : d.irqEnabled = true) :
    irqOff u (s.onUnit u m d p es) = s.onUnit u m { d with irqEnabled := false } p (es ++ [.irqEnable u false]) := by
  simp [irqOff, devAt_onUnit h, hirq]

/-- A job both of whose sides are done is finished: the interrupt off, the unit without a job, then `JobTransferFinished` (R236). -/
theorem finishIfDone_onUnit {s : State} {u j n : Nat} {ctx : Ctx} {m : Memory} {d : Dev} {p : Lpspi} {es : List Entry} (h : Alone s u)
    (hcur : d.curJob = some j) (htx : d.txDone = true) (hrx : d.rxDone = true) (hirq : d.irqEnabled = true)
    (hresult : (s.jobAt j).result ≠ .ok) (howner : (s.jobAt j).owner ≠ none) :
    finishIfDone (deliver n) ctx u (s.onUnit u m d p es) = jobTransferFinished (deliver n) ctx j
      (s.onUnit u m { d with irqEnabled := false, curJob := none } p (es ++ [.irqEnable u false])) := by
  have hguard : finishGuard u (s.onUnit u m d p es) =
      (some j, s.onUnit u m { d with irqEnabled := false, curJob := none } p (es ++ [.irqEnable u false])) := by
    simp [finishGuard, devAt_onUnit h, hcur, hresult, howner, irqOff_onUnit h hirq]
  rw [finishIfDone, devAt_onUnit h, if_pos ⟨htx, hrx⟩, jobFinishGuarded, deliver_undisturbed h.onUnit, res_ok_bind]
  simp only [hguard]

theorem finishOne_last {e : SeqState} (hcancelled : e.result ≠ .cancelled) (hleft : e.remainingJobs = 1) :
    e.finishOne = .ok { e with result := .ok, remainingJobs := 0 } := by
  simp [SeqState.finishOne, countDown, hleft, hcancelled]

theorem finishOne_cancelled {e : SeqState} {r : Nat} (hcancelled : e.result = .cancelled) (hleft : e.remainingJobs = r + 1) :
    e.finishOne = .ok { e with remainingJobs := r } := by
  simp [SeqState.finishOne, countDown, hleft, hcancelled]

/-- `s` once job `j` of sequence `q` has ended and `q` became `e` (R345): the job `OK` and unlocked, its end notified. -/
def State.jobEnded (s : State) (j q : Nat) (e : SeqState) : State :=
  { s with
    job := s.job.set j { s.jobAt j with owner := none, result := .ok }
    seq := s.seq.set q e
    trace := s.trace ++ notice (s.cfg.jobAt j).endNotif .jobEnd j }

theorem unlockRemaining_onlyJob (q : Nat) (l : List Nat) (s : State) :
    unlockRemaining q l s = { s with job := (unlockRemaining q l s).job } := by
  induction l generalizing s with
  | nil => rfl
  | cons j rest ih =>
    rw [unlockRemaining, ih]
    split <;> rfl

theorem jobState_eq_withOwner {a b : JobState} {o : Option Nat} (hnext : a.next = b.next) (hresult : a.result = b.result)
    (howner : a.owner = o) : a = { b with owner := o } := by
  rw [← hnext, ← hresult, ← howner]

/-- What the end of a job and the clean-up leave of the jobs (46_cancel.md R375): the one that ended is `OK` and unlocked, the others
that the sequence still owns are unlocked. -/
theorem unlockRemaining_jobAt {s : State} {j q : Nat} {l : List Nat} {e : SeqState} (hj : j < s.job.length)
    (hl : ∀ i ∈ l, i < s.job.length) (i : Nat) : (unlockRemaining q l (s.jobEnded j q e)).jobAt i =
      if j = i then { s.jobAt j with owner := none, result := .ok }
      else if i ∈ l ∧ (s.jobAt i).owner = some q then { s.jobAt i with owner := none } else s.jobAt i := by
  have hended : (s.jobEnded j q e).jobAt i = if j = i then { s.jobAt j with owner := none, result := .ok } else s.jobAt i :=
    jobAt_setJob hj _ i
  obtain ⟨-, -, -, hnext, hresult, howner⟩ := unlockRemaining_spec (s := s.jobEnded j q e) (q := q) (l := l)
    (fun i hi => (hl i hi).trans_eq (List.length_set ..).symm)
  have hall : (unlockRemaining q l (s.jobEnded j q e)).jobAt i = { (s.jobEnded j q e).jobAt i with
      owner := if i ∈ l ∧ ((s.jobEnded j q e).jobAt i).owner = some q then none else ((s.jobEnded j q e).jobAt i).owner } := by
    exact jobState_eq_withOwner (hnext i) (hresult i) (howner i)
  rw [hall, hended]
  split
  · simp
  · split <;> rfl

/-- With nothing waiting for a unit it becomes idle (R342). -/
theorem scheduleNextJob_none {s : State} {u n : Nat} {ctx : Ctx} (hcalm : s.undisturbed = true) (hnone : (s.unitAt u).maxPrio < 0) :
    scheduleNextJob (deliver n) ctx u s = .ok (s.setUnitStatus u .idle) := by
  simp [scheduleNextJob, deliver_undisturbed hcalm, popNext, hnone]

section
variable {s : State} {j q n : Nat} {ctx : Ctx} {e : SeqState} (hcalm : s.undisturbed = true) (howner : (s.jobAt j).owner = some q)
  (hone : (s.seqAt q).finishOne = .ok e)
include hcalm howner hone

/-- `CS7` and the end notification; then what the sequence's result and count of jobs ask for (R345). -/
theorem jobTransferFinished_eq : jobTransferFinished (deliver n) ctx j s =
    if (s.seqAt q).result = .cancelled then do
      let t ← cancelCleanup (deliver n) (ctx.enterCleanup true q) q (s.jobEnded j q e)
      scheduleNextJob (deliver n) ctx (s.unitOf j) t
    else if (s.seqAt q).remainingJobs - 1 = 0 then
      scheduleNextJob (deliver n) ctx (s.unitOf j) (notify (s.cfg.seqAt q).endNotif .seqEnd q (s.jobEnded j q e))
    else startOrScheduleNext (deliver n) ctx q (s.unitOf j) (s.jobEnded j q e) := by
  have hfinish : finishJob j q s = .ok ((s.setJob j { s.jobAt j with owner := none, result := .ok }).setSeq q e) := by
    rw [finishJob, hone]; rfl
  have hended : notify (s.cfg.jobAt j).endNotif .jobEnd j ((s.setJob j { s.jobAt j with owner := none, result := .ok }).setSeq q e) =
      s.jobEnded j q e := notify_eq _ _ _ _
  simp only [jobTransferFinished, deliver_undisturbed hcalm, res_ok_bind, howner, hfinish,
    deliver_undisturbed (show ((s.setJob j _).setSeq q e).undisturbed = true from hcalm), setSeq_cfg, setJob_cfg, hended,
    decide_eq_true_eq]
  by_cases hcancelled : (s.seqAt q).result = .cancelled
  · simp only [hcancelled, decide_true]; rfl
  · simp only [if_neg hcancelled]
    rfl

variable (hnone : (s.unitAt (s.unitOf j)).maxPrio < 0)
include hnone

/-- The last job of a sequence, with nothing waiting for its unit. -/
theorem jobTransferFinished_last (hcancelled : (s.seqAt q).result ≠ .cancelled) (hleft : (s.seqAt q).remainingJobs = 1) :
    jobTransferFinished (deliver n) ctx j s = .ok { s.jobEnded j q e with
      unit := s.unit.set (s.unitOf j) { s.unitAt (s.unitOf j) with status := .idle }
      trace := s.trace ++ notice (s.cfg.jobAt j).endNotif .jobEnd j ++ notice (s.cfg.seqAt q).endNotif .seqEnd q } := by
  rw [jobTransferFinished_eq hcalm howner hone, if_neg hcancelled, if_pos (by rw [hleft]), notify_eq]
  exact scheduleNextJob_none hcalm hnone

/-- A job of a cancelled sequence, with nothing waiting for its unit: the clean-up first (46_cancel.md R374). -/
theorem jobTransferFinished_cancelled (hcancelled : (s.seqAt q).result = .cancelled) (hj : j < s.job.length)
    (hjobs : ∀ i ∈ (s.cfg.seqAt q).jobs, i < s.job.length) :
    ∃ js, jobTransferFinished (deliver n) ctx j s = .ok { s.jobEnded j q e with
        job := js
        unit := s.unit.set (s.unitOf j) { s.unitAt (s.unitOf j) with status := .idle }
        trace := s.trace ++ notice (s.cfg.jobAt j).endNotif .jobEnd j ++
          notice (s.params.cancelFiresSeqEnd && (s.cfg.seqAt q).endNotif) .seqEnd q } ∧
      ∀ i, tget js i = if j = i then { s.jobAt j with owner := none, result := .ok }
        else if i ∈ (s.cfg.seqAt q).jobs ∧ (s.jobAt i).owner = some q then { s.jobAt i with owner := none } else s.jobAt i := by
  have hcleanup : cancelCleanup (deliver n) (ctx.enterCleanup true q) q (s.jobEnded j q e) = .ok { s.jobEnded j q e with
      job := (unlockRemaining q (s.cfg.seqAt q).jobs (s.jobEnded j q e)).job
      trace := s.trace ++ notice (s.cfg.jobAt j).endNotif .jobEnd j ++
        notice (s.params.cancelFiresSeqEnd && (s.cfg.seqAt q).endNotif) .seqEnd q } := by
    simp only [cancelCleanup, deliver_undisturbed (show (s.jobEnded j q e).undisturbed = true from hcalm), res_ok_bind, notify_eq]
    rw [unlockRemaining_onlyJob]
    rfl
  refine ⟨_, ?_, unlockRemaining_jobAt (e := e) hj hjobs⟩
  rw [jobTransferFinished_eq hcalm howner hone, if_pos hcancelled, hcleanup]
  exact scheduleNextJob_none hcalm hnone

end

/-- Settles O52: the last frame is stored and ends both sides, and the job is finished with nothing waiting for its unit. -/
theorem lastFrameFinishesTheSequence : Obligations.LastFrameFinishesTheSequence := by
  unfold Obligations.LastFrameFinishesTheSequence
  intro s unit j c q r v rest hcalm htables hmem hserved hmaster hcur hj hunit htx hrx hc hlast hleft hready hfifo hresult howner hq
    hremaining hnone
  have halone := Alone.of_fifoServed hcalm htables hserved
  obtain ⟨hevent, -, hirq⟩ := fifoServed_iff.1 hserved
  have hfit := fit_of_tablesOk htables (eventServed_init hevent)
  have hstores := storesFrame_keepFrame hmem c (s.rxIndex unit.toNat c) v
  have hframe := (rxReadFrame_last (m := s.mem)
    (es := [.regRead unit.toNat (.fifostat (s.lpspiAt unit.toNat).txCount (s.lpspiAt unit.toNat).rxCount)]) halone hcur hc hfifo hready
    hleft).trans (rxChannelComplete_last halone hcur hlast)
  have hdev : { (s.devAt unit.toNat).received 1 with rxDone := true } = { s.devAt unit.toNat with rxRemaining := 0, rxDone := true } := by
    rw [Dev.received, hleft]
  rw [hdev] at hframe
  have hexec := exec_evFifo hcalm htables hserved ((fifoDispatch_master hmaster).trans
    (masterDispatch_receive halone hrx (rxCount_pos hfifo) hframe (by exact htx)))
  rw [State.boundary, finishIfDone_onUnit (d := { s.devAt unit.toNat with rxRemaining := 0, rxDone := true }) halone hcur htx rfl hirq
    hresult (by simp [howner])] at hexec
  rw [← hunit] at hnone
  refine ⟨fun hcancelled hr => ?last, fun hcancelled => ?cancelled⟩
  case last =>
    subst hr
    rw [jobTransferFinished_last halone.onUnit howner (finishOne_last hcancelled hremaining) hnone hcancelled hremaining, outcome_ok,
      onUnit_unitOf, hunit] at hexec
    exact ⟨_, hexec, rfl, hstores⟩
  case cancelled =>
    obtain ⟨js, hfinished, hjobAt⟩ := jobTransferFinished_cancelled (n := s.inputs.length)
      (ctx := Ctx.foreground.enterHandler unit.toNat) halone.onUnit howner
      (finishOne_cancelled hcancelled hremaining) hnone hcancelled (hfit.job_lt hj) fun i hi => hfit.job_lt (hfit.seqJob_lt hq hi)
    rw [hfinished, outcome_ok, onUnit_unitOf, hunit] at hexec
    refine ⟨_, hexec, rfl, hstores, (hjobAt j).trans (if_pos rfl), fun i hi hmem howned => (hjobAt i).trans ?_,
      fun i hi hother => (hjobAt i).trans ?_⟩
    · rw [if_neg hi.symm]; exact if_pos ⟨hmem, howned⟩
    · rw [if_neg hi.symm]; exact if_neg (not_and_or.2 hother)

/-! Jobs that cannot be transferred (41_engine_fifo.md R212, 93_implementation_defined.md U11) -/

/-- Why the start of job `j` is refused, if it is: its buffers overlap, or its first channel has no frames. -/
def State.startRefusal (s : State) (j : Nat) : Option Refusal :=
  if s.buffersOverlap j = true then some .overlappingBuffers
  else if (s.chanAt (s.chanOf j 0)).length = 0 then some .zeroLengthChannel
  else none

theorem startRefusal_eq_some {s : State} {j : Nat} {r : Refusal} : s.startRefusal j = some r ↔
    s.buffersOverlap j = true ∧ r = .overlappingBuffers ∨
      s.buffersOverlap j = false ∧ (s.chanAt (s.chanOf j 0)).length = 0 ∧ r = .zeroLengthChannel := by
  by_cases hoverlap : s.buffersOverlap j = true <;> by_cases hzero : (s.chanAt (s.chanOf j 0)).length = 0 <;>
    simp [State.startRefusal, hoverlap, hzero, eq_comm]

theorem setChanIdx_onUnit {s : State} {u : Nat} {m : Memory} {d : Dev} {p : Lpspi} {es : List Entry} {k : Nat} (h : Alone s u)
    (hk : k ≤ 65535) : setChanIdx u k (s.onUnit u m d p es) = .ok (s.onUnit u m { d with txChanIdx := k, rxChanIdx := k } p es) := by
  rw [setChanIdx, if_pos hk, devAt_onUnit h, setDev_onUnit]

/-- The clock write at the start of a job (R211, 44_sync_transmit.md R306). -/
theorem regWrite_clkcfg {s : State} {u : Nat} (h : Alone s u) (t : Word) : regWrite u (.clkcfg t) s =
    .ok (s.onUnit u s.mem (s.devAt u) ((s.lpspiAt u).write s.params.fifoSize s.freeCount (.clkcfg t)) [.regWrite u (.clkcfg t)]) := by
  have hwrite := regWrite_onUnit (m := s.mem) (d := s.devAt u) (p := s.lpspiAt u) (es := []) (w := .clkcfg t) h rfl
  rwa [onUnit_self] at hwrite

/-- A job whose first channel has no frames is refused there, on the general path and on the cached one. -/
theorem syncChannels_zeroLength {s : State} {u j n c t : Nat} {cs : List Nat} {ctx : Ctx} {m : Memory} {d : Dev} {p : Lpspi}
    {es : List Entry} (h : Alone s u) (hzero : (s.chanAt (s.chanOf j 0)).length = 0) :
    syncChannels (deliver n) ctx u (c :: cs) 0 t (enterSyncJob u j (s.onUnit u m d p es)) = .error (.refused .zeroLengthChannel) := by
  rw [enterSyncJob, devAt_onUnit h, setDev_onUnit, syncChannels, setChanIdx_onUnit h (Nat.zero_le _), res_ok_bind,
    txChannelInit_zeroLength (j := j) h (by rfl) hzero]
  rfl

theorem fastChannels_zeroLength {s : State} {n t : Nat} {e : CacheEntry} {c : CacheChan} {cs : List CacheChan} {ctx : Ctx} {m : Memory}
    {d : Dev} {p : Lpspi} {es : List Entry} (h : Alone s e.unit) (hzero : (s.chanAt c.chan).length = 0) :
    fastChannels (deliver n) ctx e (c :: cs) 0 t (enterSyncJob e.unit e.job (s.onUnit e.unit m d p es)) =
      .error (.refused .zeroLengthChannel) := by
  rw [enterSyncJob, setDev_onUnit, fastChannels, setChanIdx_onUnit h (Nat.zero_le _), res_ok_bind, fastChannelInit, onUnit_chanAt,
    if_pos hzero]
  rfl

section
variable {s : State} {u j : Nat} {r : Refusal} (h : Alone s u) (hu : u = s.unitOf j) (hrefused : s.startRefusal j = some r)
include h hu hrefused

/-- The start of the job, on the FIFO path and on the DMA path. -/
theorem jobStart_refused : jobStart j s = .error (.refused r) := by
  obtain ⟨hoverlap, rfl⟩ | ⟨hbuf, hzero, rfl⟩ := startRefusal_eq_some.1 hrefused
  · exact jobStart_overlapping hoverlap
  · rw [jobStart_eq h hu hbuf rfl, dmaJobStart, rxDmaChannelInit, currentJob_onUnit h rfl, fifoJobStart,
      txChannelInit_zeroLength h rfl hzero]
    simp only [res_ok_bind, devAt_onUnit h, onUnit_chanOf, onUnit_chanAt, Dev.entered, hzero, if_pos]
    split <;> rfl

variable {n t : Nat} {ctx : Ctx} (hchannels : (s.cfg.jobAt j).channels ≠ [])
include hchannels

/-- A synchronous job on the general path. -/
theorem syncJobTransfer_refused : syncJobTransfer (deliver n) ctx j t s = .error (.refused r) := by
  rw [syncJobTransfer, deliver_undisturbed h.calm, res_ok_bind]
  obtain ⟨hoverlap, rfl⟩ | ⟨hbuf, hzero, rfl⟩ := startRefusal_eq_some.1 hrefused
  · exact if_pos hoverlap
  · obtain ⟨c, cs, hcs⟩ := List.exists_cons_of_ne_nil hchannels
    simp only [if_neg (Bool.eq_false_iff.1 hbuf), ← hu, regWrite_clkcfg h, res_ok_bind, onUnit_cfg, hcs, syncChannels_zeroLength h hzero]
    rfl

/-- A synchronous job on the cached path. -/
theorem fastJobTransfer_refused {q : Nat} :
    fastJobTransfer (deliver n) ctx (cacheEntry s.params s.cfg q j) t s = .error (.refused r) := by
  rw [fastJobTransfer, deliver_undisturbed h.calm, res_ok_bind]
  obtain ⟨hoverlap, rfl⟩ | ⟨hbuf, hzero, rfl⟩ := startRefusal_eq_some.1 hrefused
  · exact if_pos hoverlap
  · obtain ⟨c, cs, hcs⟩ := List.exists_cons_of_ne_nil hchannels
    have hfirst : (s.chanAt c).length = 0 := by rwa [State.chanOf, hcs] at hzero
    subst hu
    have hentry : Alone s (cacheEntry s.params s.cfg q j).unit := h
    have hchans : (cacheEntry s.params s.cfg q j).chans = _ :: _ := congrArg (List.map _) hcs
    have hnot : s.buffersOverlap (cacheEntry s.params s.cfg q j).job ≠ true := Bool.eq_false_iff.1 hbuf
    rw [if_neg hnot, regWrite_clkcfg hentry, res_ok_bind, hchans, fastChannels_zeroLength hentry hfirst]
    rfl

end

/-- `SYNC_TRANSMIT` after its claim. -/
theorem syncTransfer_refused {s : State} {q j n t : Nat} {rest : List Nat} {ctx : Ctx} {r : Refusal} (h : Alone s (s.unitOf j))
    (hrefused : s.startRefusal j = some r) (hchannels : (s.cfg.jobAt j).channels ≠ []) (hjobs : (s.cfg.seqAt q).jobs = j :: rest)
    (hcache : ∀ e, cacheEntryOf q s = some e → ∃ i, (s.cfg.seqAt q).jobs = [i] ∧ e = cacheEntry s.params s.cfg q i) :
    syncTransfer (deliver n) ctx q t s = .error (.refused r) := by
  unfold syncTransfer
  split
  next e he =>
    obtain ⟨i, hone, rfl⟩ := hcache e he
    obtain ⟨rfl, -⟩ : j = i ∧ rest = [] := by simpa [hjobs] using hone
    simp only [syncSeqFast, deliver_undisturbed h.calm, res_ok_bind, notify_eq]
    refine (congrArg (· >>= _) (fastJobTransfer_refused (s := { s.setJobResult j .pending with
      trace := s.trace ++ notice (s.cfg.jobAt j).startNotif .jobStart j }) ⟨h.dev, h.lpspi, h.calm⟩ rfl hrefused hchannels)).trans ?_
    rfl
  next =>
    simp only [syncSeqGeneral, hjobs, syncJobs, deliver_undisturbed h.calm, res_ok_bind, syncJobBegin, notify_eq]
    refine (congrArg (· >>= _) (syncJobTransfer_refused (s := { s.setJobResult j .pending with
      trace := s.trace ++ notice (s.cfg.jobAt j).startNotif .jobStart j }) ⟨h.dev, h.lpspi, h.calm⟩ rfl hrefused hchannels)).trans ?_
    rfl

theorem cmdSyncTransmit_refused {s : State} {q j n : Nat} {rest : List Nat} {ctx : Ctx} {r : Refusal} (hfit : Fit s)
    (h : Alone s (s.unitOf j)) (hrefused : s.startRefusal j = some r) (hchannels : (s.cfg.jobAt j).channels ≠ [])
    (hq : q < s.cfg.numSeqs) (hresult : (s.seqAt q).result ≠ .pending) (hjobs : (s.cfg.seqAt q).jobs = j :: rest)
    (hlevel : s.params.level ≠ .asyncOnly) (hsync : s.seqIsSync q = true) (hfree : s.syncBusyMask &&& s.usedUnits q = 0) :
    cmdSyncTransmit (deliver n) ctx q s = .error (.refused r) := by
  have htransfer := syncTransfer_refused (s := claimSync q s) (n := n) (t := s.params.timeoutCounter.toNat) (ctx := ctx)
    ⟨h.dev, h.lpspi, h.calm⟩ hrefused hchannels hjobs fun _ he => hfit.cacheEntryOf_eq he
  have hhas : ¬ s.hasSync = false := by simp [State.hasSync, hlevel]
  have hrange : ¬ s.seqInRange q = false := by simp [State.seqInRange, hq]
  rw [cmdSyncTransmit, if_neg hhas, if_neg (by simp [hfit.init]), if_neg hrange, if_neg (by simp [hsync]), deliver_undisturbed h.calm,
    res_ok_bind, if_neg (by simp [hresult, hfree]), syncRun]
  exact congrArg (· >>= _) htransfer

/-! `ASYNC_TRANSMIT` up to the start of the first job (45_scheduler.md R330, R331, R340) -/

theorem lockFrom_free {q : Nat} {locked l : List Nat} {s : State} (hnodup : l.Nodup) (hfree : ∀ i ∈ l, (s.jobAt i).owner = none) :
    ∃ js, lockFrom q locked l s = (true, { s with job := js }) := by
  induction l generalizing locked s with
  | nil => exact ⟨s.job, rfl⟩
  | cons j rest ih =>
    obtain ⟨hnot, hrest⟩ := List.nodup_cons.1 hnodup
    have hj : ¬ (s.jobAt j).owner.isSome = true := by simp [hfree j List.mem_cons_self]
    obtain ⟨js, hjs⟩ := ih (locked := locked ++ [j]) (s := s.setJobOwner j (some q)) hrest fun i hi => by
      rw [State.setJobOwner, jobAt_setJob_ne _ _ _ _ fun he : j = i => hnot (he ▸ hi)]
      exact hfree i (List.mem_cons_of_mem j hi)
    exact ⟨js, by rw [lockFrom, if_neg hj, hjs]; rfl⟩

/-- Free jobs, all different, of a sequence that is not `PENDING` are locked. -/
theorem lockJobs_free {q : Nat} {s : State} (hresult : (s.seqAt q).result ≠ .pending) (hnodup : (s.cfg.seqAt q).jobs.Nodup)
    (hfree : ∀ i ∈ (s.cfg.seqAt q).jobs, (s.jobAt i).owner = none) : ∃ js, lockJobs q s = (true, { s with job := js }) := by
  rw [lockJobs, if_neg hresult]
  split
  next j hjobs => exact ⟨_, if_neg (by simp [hfree j (by simp [hjobs])])⟩
  next => exact lockFrom_free hnodup hfree

theorem queueAll_onlyJob (l : List Nat) (s : State) : ∃ js, queueAll l s = { s with job := js } := by
  induction l generalizing s with
  | nil => exact ⟨s.job, rfl⟩
  | cons j rest ih => obtain ⟨js, hjs⟩ := ih (s.setJobResult j .queued); exact ⟨js, hjs⟩

/-- On an idle unit a job starts at once (R340). -/
theorem scheduleJob_idle {s : State} {j n : Nat} {ctx : Ctx} (hcalm : s.undisturbed = true)
    (hidle : (s.unitAt (s.unitOf j)).status = .idle) :
    scheduleJob (deliver n) ctx j s = jobStart j ((s.setUnitStatus (s.unitOf j) .busy).setJobResult j .pending) := by
  have hclaim : claimOrEnqueue j s = (true, (s.setUnitStatus (s.unitOf j) .busy).setJobResult j .pending) := if_pos hidle
  simp [scheduleJob, hcalm, hclaim, jobTransfer]

/-- A sequence that is accepted on an idle unit starts its first job; what came before wrote jobs, sequences and units only. -/
theorem cmdAsyncTransmit_starts {s : State} {q j n : Nat} {rest : List Nat} (hcalm : s.undisturbed = true) (hinit : s.drvInit = true)
    (hq : q < s.cfg.numSeqs) (hresult : (s.seqAt q).result ≠ .pending) (hjobs : (s.cfg.seqAt q).jobs = j :: rest)
    (hlevel : s.params.level ≠ .syncOnly) (hsync : s.seqIsSync q = false) (hnodup : (j :: rest).Nodup)
    (hfree : ∀ i ∈ j :: rest, (s.jobAt i).owner = none) (hidle : (s.unitAt (s.unitOf j)).status = .idle) :
    ∃ js qs us, cmdAsyncTransmit (deliver n) .foreground q s =
      jobStart j { s with job := js, seq := qs, unit := us } >>= fun t => .ok (respond eOk t) := by
  obtain ⟨js, hlock⟩ := lockJobs_free hresult (hjobs ▸ hnodup) (hjobs ▸ hfree)
  obtain ⟨js', hqueue⟩ := queueAll_onlyJob (j :: rest)
    { s with job := js, seq := tset s.seq q { result := .pending, remainingJobs := (j :: rest).length, cursor := 0 } }
  have haccept : acceptSeq q { s with job := js } = { s with
      job := js', seq := tset s.seq q { result := .pending, remainingJobs := (j :: rest).length, cursor := 0 } } := by
    simp only [acceptSeq, hjobs]
    exact hqueue
  have hasync : ¬ s.hasAsync = false := by simp [State.hasAsync, hlevel]
  have hrange : ¬ s.seqInRange q = false := by simp [State.seqInRange, hq]
  have hfirst : tget (s.cfg.seqAt q).jobs 0 = j := by rw [hjobs]; rfl
  have hlocked : tryLock .foreground q s = (true, { s with job := js }) := (if_neg List.not_mem_nil).trans hlock
  have hcalm' : ({ s with job := js } : State).undisturbed = true := hcalm
  have hstarted := scheduleJob_idle (n := n) (ctx := .foreground) (j := j) (s := { s with
    job := js', seq := tset s.seq q { result := .pending, remainingJobs := (j :: rest).length, cursor := 0 } }) hcalm hidle
  have hrun : cmdAsyncTransmit (deliver n) .foreground q s =
      scheduleJob (deliver n) .foreground j (acceptSeq q { s with job := js }) >>= fun t => .ok (respond eOk t) := by
    rw [cmdAsyncTransmit, if_neg hasync, if_neg (by simp [hinit]), if_neg hrange, if_neg (by simp [hsync]), deliver_undisturbed hcalm,
      res_ok_bind]
    simp only [hlocked, deliver_undisturbed hcalm', res_ok_bind, haccept, hfirst]
  rw [haccept, hstarted] at hrun
  exact ⟨_, _, _, hrun⟩

theorem Fit.channels_ne_nil {s : State} (h : Fit s) {j : Nat} (hj : j < s.cfg.numJobs) : (s.cfg.jobAt j).channels ≠ [] := by
  obtain ⟨-, -, hjobs, -⟩ := cfgWellFormed_parts h.wf
  have hok := hjobs (s.cfg.jobAt j) (tget_mem s.cfg.jobs j hj)
  simp only [jobOk, Bool.and_eq_true] at hok
  obtain ⟨⟨⟨⟨⟨hempty, -⟩, -⟩, -⟩, -⟩, -⟩ := hok
  simpa using hempty

/-- Settles O44: what comes before the job's start leaves its buffers, its channels and its unit alone. -/
theorem untransferableJobsAreRefused : Obligations.UntransferableJobsAreRefused := by
  unfold Obligations.UntransferableJobsAreRefused
  intro s k j rest hcalm htables hinit hq hresult hjobs
  have hfit := fit_of_tablesOk htables hinit
  have hj : j < s.cfg.numJobs := hfit.seqJob_lt hq (hjobs ▸ List.mem_cons_self)
  have halone : Alone s (s.unitOf j) := .of_tablesOk htables hinit (hfit.unitOf_lt hj) hcalm
  have hchannels := hfit.channels_ne_nil hj
  refine ⟨fun hlevel hsync hnodup hfree hidle => ?async, fun hlevel hsync hunits => ?sync⟩
  case async =>
    have hrefuse : ∀ r, s.startRefusal j = some r → exec (.asyncTransmit k) s = .refused r := fun r hr => by
      obtain ⟨js, qs, us, hrun⟩ := cmdAsyncTransmit_starts (n := s.inputs.length) hcalm hinit hq hresult hjobs hlevel hsync
        hnodup hfree hidle
      have hstart := jobStart_refused (s := { s with job := js, seq := qs, unit := us }) ⟨halone.dev, halone.lpspi, halone.calm⟩ rfl hr
      rw [show exec (.asyncTransmit k) s = execAsyncTransmit k s from rfl, execAsyncTransmit, State.boundary, hrun, hstart]
      rfl
    exact ⟨fun hoverlap => hrefuse _ (startRefusal_eq_some.2 (.inl ⟨hoverlap, rfl⟩)),
      fun hbuf hzero => hrefuse _ (startRefusal_eq_some.2 (.inr ⟨hbuf, hzero, rfl⟩))⟩
  case sync =>
    have hrefuse : ∀ r, s.startRefusal j = some r → exec (.syncTransmit k) s = .refused r := fun r hr => by
      rw [show exec (.syncTransmit k) s = execSyncTransmit k s from rfl, execSyncTransmit, State.boundary,
        cmdSyncTransmit_refused hfit halone hr hchannels hq hresult hjobs hlevel hsync hunits]
      rfl
    exact ⟨fun hoverlap => hrefuse _ (startRefusal_eq_some.2 (.inl ⟨hoverlap, rfl⟩)),
      fun hbuf hzero => hrefuse _ (startRefusal_eq_some.2 (.inr ⟨hbuf, hzero, rfl⟩))⟩

end Sys2Proof.Machine

/-! SUPPORT and PROOFS of the DMA-engine family (42_engine_dma.md): the control actions on a DMA channel, the engine's own moves, the
passes of at most 511 frames, and what the start of a job and the completion events make of the two channels of a unit. -/

namespace Sys2Proof.Machine

/-! The control actions (R251) -/

theorem dmaStore_dmaStore (l : List (Nat × DmaChan)) (ch : Nat) (d d' : DmaChan) :
    dmaStore (dmaStore l ch d) ch d' = dmaStore l ch d' := by
  induction l with
  | nil => simp [dmaStore]
  | cons e rest ih =>
    obtain ⟨k, x⟩ := e
    by_cases h : k = ch
    · simp [dmaStore, h]
    · simp [dmaStore, h, ih]

@[simp] theorem setDma_setDma (s : State) (ch : Nat) (d d' : DmaChan) : (s.setDma ch d).setDma ch d' = s.setDma ch d' := by
  simp [State.setDma, dmaStore_dmaStore]

/-- An update of one DMA channel is read there and nowhere else. -/
theorem setDma_dmaAt (s : State) (ch : Nat) (d : DmaChan) :
    (s.setDma ch d).dmaAt ch = d ∧ ∀ ch', ch' ≠ ch → (s.setDma ch d).dmaAt ch' = s.dmaAt ch' :=
  ⟨dmaAt_setDma_same s ch d, fun ch' hne => dmaAt_setDma_ne s ch ch' d hne.symm⟩

/-- Settles O56: each action is one `setDma` and one trace entry. -/
theorem dmaControlActions : Obligations.DmaControlActions := by
  unfold Obligations.DmaControlActions
  intro s ch ch' u n tcd
  have hsame : ∀ d e, ((s.setDma ch d).emit e).dmaAt ch = d := fun d _ => dmaAt_setDma_same s ch d
  refine ⟨⟨rfl, hsame _ _⟩, ⟨rfl, hsame _ _⟩, ⟨rfl, hsame _ _⟩, ⟨rfl, hsame _ _⟩, ⟨rfl, hsame _ _⟩, ⟨rfl, hsame _ _⟩, ⟨rfl, hsame _ _⟩,
    fun hne => ?_⟩
  have hother : ∀ d e, ((s.setDma ch d).emit e).dmaAt ch' = s.dmaAt ch' := fun d _ => dmaAt_setDma_ne s ch ch' d hne.symm
  simp only [List.forall_mem_cons]
  exact ⟨hother _ _, hother _ _, hother _ _, hother _ _, hother _ _, hother _ _, hother _ _, List.forall_mem_nil _⟩

/-! Passes of at most 511 frames (R253) -/

theorem chunk_eq (n : Nat) : chunk n = min n 511 := rfl

theorem iterate_sub_chunk (total k : Nat) : (fun r => r - chunk r)^[k] total = total - 511 * k := by
  induction k with
  | zero => rfl
  | succ k ih =>
    rw [Function.iterate_succ_apply', ih, chunk_eq]
    omega

/-- Settles O58: every clause is about the frames that `iterate_sub_chunk` says are left. -/
theorem chunkArithmetic : Obligations.ChunkArithmetic := by
  unfold Obligations.ChunkArithmetic
  refine ⟨iterate_sub_chunk, fun total => ⟨?none, fun k hk => ?full⟩, fun total k hk => ?nonempty, rfl, rfl,
    iterate_sub_chunk 1200 2, iterate_sub_chunk 65535 128⟩
  case none => rw [iterate_sub_chunk]; omega
  case full => rw [iterate_sub_chunk, chunk_eq]; omega
  case nonempty => rw [iterate_sub_chunk, chunk_eq]; omega

/-! The engine's own moves (R268) -/

/-- The DMA channel after one of its iterations: at the last one it stops and is done. -/
def DmaChan.counted (d : DmaChan) : DmaChan :=
  { d with iterLeft := d.iterLeft - 1, active := decide (d.iterLeft ≠ 1), done := d.done || decide (d.iterLeft = 1) }

/-- The events raised after an iteration of `d` for unit `u`: the completion of the last one joins them in `INTERRUPT` mode. -/
def State.raisedAfter (s : State) (u : Nat) (kind : BitVec 4) (d : DmaChan) : List Byte :=
  if d.iterLeft = 1 ∧ (s.devAt u).asyncMode = .interrupt then s.raised ++ [eventWord kind (BitVec.ofNat 4 u)] else s.raised

theorem dmaCount_eq {s : State} {u ch : Nat} {kind : BitVec 4} (hactive : (s.dmaAt ch).active = true) :
    s.dmaCount u ch kind = { s.setDma ch (s.dmaAt ch).counted with raised := s.raisedAfter u kind (s.dmaAt ch) } := by
  by_cases hlast : (s.dmaAt ch).iterLeft = 1
  · have hdone : (s.dmaAt ch).counted = { s.dmaAt ch with iterLeft := 0, active := false, done := true } := by
      simp [DmaChan.counted, hlast]
    rw [State.dmaCount, if_pos hlast, hdone, State.raisedAfter]
    by_cases hmode : (s.devAt u).asyncMode = .interrupt
    · rw [if_pos (And.intro hlast hmode)]; exact if_pos hmode
    · rw [if_neg (not_and_of_not_right _ hmode)]; exact if_neg hmode
  · have hmore : (s.dmaAt ch).counted = { s.dmaAt ch with iterLeft := (s.dmaAt ch).iterLeft - 1 } := by
      simp [DmaChan.counted, hlast, hactive]
    rw [State.dmaCount, if_neg hlast, hmore, State.raisedAfter, if_neg (not_and_of_not_left _ hlast)]
    rfl

section
variable {s : State} {u ch : Nat} (hactive : (s.dmaAt ch).active = true)
include hactive

/-- A frame put into `TXDATA` that has room for it. -/
theorem dmaPut_eq {v : Word} (hroom : 0 < s.txRoom u) : dmaPut s u ch v =
    { s.setDma ch (({ s.dmaAt ch with curSrc := (s.dmaAt ch).curSrc.advance (s.dmaAt ch).tcd.srcInc } : DmaChan).counted) with
      lpspi := s.lpspi.set u { s.lpspiAt u with txFifo := (s.lpspiAt u).txFifo ++ [.frame v] }
      raised := s.raisedAfter u 2 (s.dmaAt ch)
      trace := s.trace ++ [.dmaWrite u v] } := by
  have hcount : (s.lpspiAt u).txCount < s.params.fifoSize := Nat.lt_of_sub_pos hroom
  have hpoke : s.pokeReg u (.txdata v) =
      { s with lpspi := s.lpspi.set u { s.lpspiAt u with txFifo := (s.lpspiAt u).txFifo ++ [.frame v] } } := by
    simp [State.pokeReg, usesFree, hcount, write_txdata_of_room hcount, tset]
  rw [dmaPut, hpoke, dmaCount_eq (by rw [dmaAt_setDma_same]; exact hactive), dmaAt_setDma_same, setDma_setDma]
  rfl

/-- The channel after a frame taken from `RXDATA` has reached its destination. -/
theorem dmaTaken_eq : dmaTaken s u ch =
    { s.setDma ch (({ s.dmaAt ch with curDst := (s.dmaAt ch).curDst.advance (s.dmaAt ch).tcd.dstInc } : DmaChan).counted) with
      raised := s.raisedAfter u 3 (s.dmaAt ch) } := by
  rw [dmaTaken, dmaCount_eq (by rw [dmaAt_setDma_same]; exact hactive), dmaAt_setDma_same, setDma_setDma]
  rfl

end

/-- The transmit descriptor of unit `u` may move a frame. -/
structure TxMoves (s : State) (u : Nat) : Prop where
  unit : u < s.cfg.numUnits
  used : (s.cfg.unitAt u).dmaUsed = true
  active : (s.dmaAt (s.cfg.unitAt u).dmaTxCh).active = true
  left : 0 < (s.dmaAt (s.cfg.unitAt u).dmaTxCh).iterLeft
  room : 0 < s.txRoom u

theorem dmaTxMove_idle {s : State} {u : Nat} (h : (s.cfg.unitAt u).dmaUsed = false ∨ (s.dmaAt (s.cfg.unitAt u).dmaTxCh).active = false ∨
    (s.dmaAt (s.cfg.unitAt u).dmaTxCh).iterLeft = 0 ∨ s.txRoom u = 0) : dmaTxMove u s = .ok s := by
  rw [dmaTxMove, if_neg]
  rintro ⟨-, hused, hactive, hleft, hroom⟩
  obtain h | h | h | h := h
  · simp [h] at hused
  · simp [h] at hactive
  · exact hleft.ne' h
  · exact hroom.ne' h

section
variable {s : State} {u ch a : Nat} (h : TxMoves s u) (hch : ch = (s.cfg.unitAt u).dmaTxCh)
include h hch

theorem dmaTxMove_defaultWord {c : Nat} (hsrc : (s.dmaAt ch).curSrc = .defaultWord c) :
    dmaTxMove u s = .ok (dmaPut s u ch (truncW (s.widthOf c) (s.cfg.channelAt c).defaultValue)) := by
  subst hch
  rw [dmaTxMove, if_pos ⟨h.unit, h.used, h.active, h.left, h.room⟩, hsrc]
  rfl

theorem dmaTxMove_outside (hsrc : (s.dmaAt ch).curSrc = .mem a) (hbuf : s.handedOver a (s.dmaAt ch).tcd.size = false) :
    dmaTxMove u s = .error (.fault .outsideBuffer) := by
  subst hch
  rw [dmaTxMove, if_pos ⟨h.unit, h.used, h.active, h.left, h.room⟩, hsrc]
  exact if_pos hbuf

theorem dmaTxMove_load (hsrc : (s.dmaAt ch).curSrc = .mem a) (hbuf : s.handedOver a (s.dmaAt ch).tcd.size = true)
    (hin : a + (s.dmaAt ch).tcd.size ≤ addressCount) :
    dmaTxMove u s = .ok (dmaPut s u ch (BitVec.ofNat 32 (memRead s.mem a (s.dmaAt ch).tcd.size))) := by
  subst hch
  rw [dmaTxMove, if_pos ⟨h.unit, h.used, h.active, h.left, h.room⟩, hsrc]
  simp only [hbuf, loadBytes, if_pos hin]
  rfl

end

/-- The receive descriptor of unit `u` may move a frame: `v` waits, with `rest` behind it. -/
structure RxMoves (s : State) (u : Nat) (v : Word) (rest : List Word) : Prop where
  unit : u < s.cfg.numUnits
  used : (s.cfg.unitAt u).dmaUsed = true
  active : (s.dmaAt (s.cfg.unitAt u).dmaRxCh).active = true
  left : 0 < (s.dmaAt (s.cfg.unitAt u).dmaRxCh).iterLeft
  fifo : (s.lpspiAt u).rxFifo = v :: rest

/-- `s` after the engine has taken `v` from `RXDATA` of unit `u`, with memory `m` and the discard word `w`. -/
def State.frameTaken (s : State) (u : Nat) (v : Word) (rest : List Word) (m : Memory) (w : Word) : State :=
  { s with
    lpspi := s.lpspi.set u { s.lpspiAt u with rxFifo := rest }
    mem := m, discardWord := w, trace := s.trace ++ [.dmaRead u v] }

theorem dmaRxMove_idle {s : State} {u : Nat} (h : (s.cfg.unitAt u).dmaUsed = false ∨ (s.dmaAt (s.cfg.unitAt u).dmaRxCh).active = false ∨
    (s.dmaAt (s.cfg.unitAt u).dmaRxCh).iterLeft = 0 ∨ (s.lpspiAt u).rxFifo = []) : dmaRxMove u s = .ok s := by
  rw [dmaRxMove, if_neg]
  rintro ⟨-, hused, hactive, hleft, hcount⟩
  obtain h | h | h | h := h
  · simp [h] at hused
  · simp [h] at hactive
  · exact hleft.ne' h
  · simp [Lpspi.rxCount, h] at hcount

section
variable {s : State} {u ch a : Nat} {v : Word} {rest : List Word} (h : RxMoves s u v rest) (hch : ch = (s.cfg.unitAt u).dmaRxCh)
include h

theorem RxMoves.popRx : s.popRx u = (v, s.setLpspi u { s.lpspiAt u with rxFifo := rest }) := by
  rw [State.popRx, h.fifo]

include hch

theorem dmaRxMove_discardWord (hdst : (s.dmaAt ch).curDst = .discardWord) :
    dmaRxMove u s = .ok (dmaTaken (s.frameTaken u v rest s.mem (truncW (widthOfSize (s.dmaAt ch).tcd.size) v)) u ch) := by
  subst hch
  rw [dmaRxMove, if_pos ⟨h.unit, h.used, h.active, h.left, rxCount_pos h.fifo⟩, hdst]
  simp only [h.popRx]
  rfl

theorem dmaRxMove_outside (hdst : (s.dmaAt ch).curDst = .mem a) (hbuf : s.handedOver a (s.dmaAt ch).tcd.size = false) :
    dmaRxMove u s = .error (.fault .outsideBuffer) := by
  subst hch
  rw [dmaRxMove, if_pos ⟨h.unit, h.used, h.active, h.left, rxCount_pos h.fifo⟩, hdst]
  exact if_pos hbuf

theorem dmaRxMove_store (hdst : (s.dmaAt ch).curDst = .mem a) (hbuf : s.handedOver a (s.dmaAt ch).tcd.size = true)
    (hin : a + (s.dmaAt ch).tcd.size ≤ addressCount) :
    dmaRxMove u s = .ok (dmaTaken (s.frameTaken u v rest
      (memWrite s.mem a (s.dmaAt ch).tcd.size (truncW (widthOfSize (s.dmaAt ch).tcd.size) v).toNat) s.discardWord) u ch) := by
  subst hch
  rw [dmaRxMove, if_pos ⟨h.unit, h.used, h.active, h.left, rxCount_pos h.fifo⟩, hdst]
  simp only [hbuf, h.popRx, setLpspi_mem, storeBytes_inside hin]
  rfl

end

/-- A received frame cut to the descriptor's size. -/
theorem truncW_widthOfSize_toNat {n : Nat} (hn : n = 1 ∨ n = 2 ∨ n = 4) (v : Word) :
    (truncW (widthOfSize n) v).toNat = v.toNat % 256 ^ n := by
  rw [truncW_toNat]
  obtain rfl | rfl | rfl := hn <;> rfl

/-- Settles O57: `dmaPut_eq` and `dmaTaken_eq` give the state after a move, whatever its other end is. -/
theorem dmaEngineMoves : Obligations.DmaEngineMoves := by
  unfold Obligations.DmaEngineMoves
  intro s u _ _ hu
  refine ⟨fun ch d hch hd => ?transmit, fun ch d hch hd => ?receive⟩
  case transmit =>
    subst hd hch
    refine ⟨dmaTxMove_idle, fun hused hactive hleft hroom => ?_⟩
    have hmoves : TxMoves s u := ⟨hu, hused, hactive, hleft, hroom⟩
    refine ⟨fun a => dmaTxMove_outside hmoves rfl, fun v next hsource => ?_⟩
    have hmove : dmaTxMove u s = .ok (dmaPut s u (s.cfg.unitAt u).dmaTxCh v) ∧
        (s.dmaAt (s.cfg.unitAt u).dmaTxCh).curSrc.advance (s.dmaAt (s.cfg.unitAt u).dmaTxCh).tcd.srcInc = next := by
      obtain ⟨c, hsrc, rfl, rfl⟩ | ⟨a, hsrc, rfl, hbuf, hin, rfl⟩ := hsource
      · exact ⟨dmaTxMove_defaultWord hmoves rfl hsrc, by rw [hsrc]; rfl⟩
      · exact ⟨dmaTxMove_load hmoves rfl hsrc hbuf hin, by rw [hsrc]; rfl⟩
    obtain ⟨hmove, hnext⟩ := hmove
    rw [dmaPut_eq hactive hroom, hnext] at hmove
    exact ⟨_, hmove, rfl, setDma_dmaAt _ _ _⟩
  case receive =>
    subst hd hch
    refine ⟨dmaRxMove_idle, fun hused hactive hleft v rest hfifo => ?_⟩
    have hmoves : RxMoves s u v rest := ⟨hu, hused, hactive, hleft, hfifo⟩
    refine ⟨fun a => dmaRxMove_outside hmoves rfl, fun next hdest => ?_⟩
    have hmove : ∃ m w, dmaRxMove u s = .ok (dmaTaken (s.frameTaken u v rest m w) u (s.cfg.unitAt u).dmaRxCh) ∧
        (s.dmaAt (s.cfg.unitAt u).dmaRxCh).curDst.advance (s.dmaAt (s.cfg.unitAt u).dmaRxCh).tcd.dstInc = next ∧
        (∀ a, (s.dmaAt (s.cfg.unitAt u).dmaRxCh).curDst = .mem a → w = s.discardWord ∧
          m = memWrite s.mem a (s.dmaAt (s.cfg.unitAt u).dmaRxCh).tcd.size
            (truncW (widthOfSize (s.dmaAt (s.cfg.unitAt u).dmaRxCh).tcd.size) v).toNat) ∧
        ((s.dmaAt (s.cfg.unitAt u).dmaRxCh).curDst = .discardWord → m = s.mem ∧
          w = truncW (widthOfSize (s.dmaAt (s.cfg.unitAt u).dmaRxCh).tcd.size) v) := by
      obtain ⟨hdst, rfl⟩ | ⟨a, hdst, rfl, hbuf, hin⟩ := hdest
      · exact ⟨_, _, dmaRxMove_discardWord hmoves rfl hdst, by rw [hdst]; rfl, by simp [hdst], fun _ => ⟨rfl, rfl⟩⟩
      · exact ⟨_, _, dmaRxMove_store hmoves rfl hdst hbuf hin, by rw [hdst]; rfl, by simp [hdst], by simp [hdst]⟩
    obtain ⟨m, w, hmove, hnext, hmem, hdiscard⟩ := hmove
    rw [dmaTaken_eq (s := s.frameTaken u v rest m w) hactive] at hmove
    refine ⟨_, hmove, rfl, fun a ha => ?stored, fun hd => ?discarded, ?channel⟩
    case stored =>
      obtain ⟨hw, hm⟩ := hmem a ha
      refine ⟨hw, fun hok hsize => ⟨?_, fun x hx => ?_⟩⟩
      · refine (congrArg (memRead · _ _) hm).trans ((memRead_memWrite_same hok).trans ?_)
        rw [truncW_widthOfSize_toNat hsize, Nat.mod_mod]
      · exact (congrArg (readByte · x) hm).trans (readByte_memWrite_outside hx)
    case discarded =>
      obtain ⟨hm, hw⟩ := hdiscard hd
      exact ⟨hm, fun hsize => (congrArg BitVec.toNat hw).trans (truncW_widthOfSize_toNat hsize v)⟩
    case channel =>
      rw [← hnext]
      exact setDma_dmaAt _ _ _

/-! What the start of a channel and a completion make of the DMA channels of a unit (R251, R253 to R256) -/

/-- A DMA channel whose next pass of at most 511 of `n` frames is loaded and started; the running addresses stay (R258, R260). -/
def DmaChan.reloaded (d : DmaChan) (n : Nat) : DmaChan := { d with iterLeft := chunk n, active := true, done := false }

theorem Alone.setDma {s : State} {u : Nat} (h : Alone s u) (ch : Nat) (x : DmaChan) : Alone (s.setDma ch x) u := ⟨h.dev, h.lpspi, h.calm⟩

theorem txTcd_of_sendsFrom {s : State} {u c inc : Nat} {src : DmaEnd} (h : s.sendsFrom c src inc) : txTcd s u c =
    { src := src, dst := .txData u, size := bpf (s.widthOf c), iter := min (s.chanAt c).length 511, srcInc := inc, dstInc := 0 } := by
  have hsource : txSource s c = (src, inc) := by
    obtain ⟨hdefault, rfl, rfl⟩ | ⟨p, hbuf, hptr, rfl, rfl⟩ := h
    · exact if_pos hdefault
    · simp [txSource, hbuf, hptr, State.widthOf]
  rw [txTcd, hsource]
  rfl

theorem rxTcd_of_keepsAt {s : State} {u c inc : Nat} {dst : DmaEnd} (h : s.keepsAt c dst inc) : rxTcd s u c =
    { src := .rxData u, dst := dst, size := bpf (s.widthOf c), iter := min (s.chanAt c).length 511, srcInc := 0, dstInc := inc } := by
  have hdestination : rxDestination s c = (dst, inc) := by
    obtain ⟨hdrop, rfl, rfl⟩ | ⟨p, hkeep, hptr, rfl, rfl⟩ := h
    · by_cases hdiscard : (s.chanAt c).discardRx = true
      · exact if_pos hdiscard
      · simp [rxDestination, hdiscard, hdrop.resolve_left hdiscard]
    · simp [rxDestination, hkeep, hptr, State.widthOf]
  rw [rxTcd, hdestination]
  rfl

section
variable (s : State) (u ch n : Nat) (x : DmaChan) (t : Tcd) (m : Memory) (d : Dev) (p : Lpspi) (es : List Entry)

theorem onUnit_setDma_sameLpspi : (s.setDma ch x).onUnit u s.mem d (s.lpspiAt u) es =
    { s.setDma ch x with dev := s.dev.set u d, trace := s.trace ++ es } := by
  simp [State.onUnit, State.lpspiAt, set_tget_self]

theorem setDma_emit_onUnit (e : Entry) : ((s.onUnit u m d p es).setDma ch x).emit e = (s.setDma ch x).onUnit u m d p (es ++ [e]) :=
  emit_onUnit (s.setDma ch x) ..

theorem dmaStart_onUnit : dmaStart ch (s.onUnit u m d p es) =
    (s.setDma ch { s.dmaAt ch with done := false, active := true }).onUnit u m d p (es ++ [.dmaStart ch]) := setDma_emit_onUnit ..

theorem dmaCfg_onUnit : dmaCfg ch t (s.onUnit u m d p es) =
    (s.setDma ch { s.dmaAt ch with tcd := t, curSrc := t.src, curDst := t.dst, iterLeft := t.iter }).onUnit u m d p
      (es ++ [.dmaCfg ch t]) := setDma_emit_onUnit ..

theorem dmaSetIter_onUnit : dmaSetIter ch n (s.onUnit u m d p es) =
    (s.setDma ch { s.dmaAt ch with iterLeft := n }).onUnit u m d p (es ++ [.dmaSetIter ch n]) := setDma_emit_onUnit ..

/-- A descriptor is written and started (R254, R256). -/
theorem dmaStart_dmaCfg_onUnit : dmaStart ch (dmaCfg ch t (s.onUnit u m d p es)) =
    (s.setDma ch (.armed t)).onUnit u m d p (es ++ [.dmaCfg ch t, .dmaStart ch]) := by
  rw [dmaCfg_onUnit, dmaStart_onUnit, dmaAt_setDma_same, setDma_setDma, List.append_assoc]
  rfl

/-- `s` after the acknowledgement that begins a dispatch, `Dev[u]` being `d` (R258, R260). -/
def State.acked : State :=
  (s.setDma ch { s.dmaAt ch with done := false }).onUnit u s.mem d (s.lpspiAt u) [.dmaAck ch]

theorem dmaAck_eq : dmaAck ch s = s.acked u ch (s.devAt u) := by
  have hack := setDma_emit_onUnit s u ch { s.dmaAt ch with done := false } s.mem (s.devAt u) (s.lpspiAt u) [] (.dmaAck ch)
  rw [onUnit_self] at hack
  exact hack

theorem setDev_acked (d' : Dev) : (s.acked u ch d).setDev u d' = s.acked u ch d' := setDev_onUnit ..

theorem reload_acked : reload ch n (s.acked u ch d) = (s.setDma ch ((s.dmaAt ch).reloaded n)).onUnit u s.mem d (s.lpspiAt u)
    [.dmaAck ch, .dmaSetIter ch (chunk n), .dmaStart ch] := by
  rw [reload, State.acked, dmaSetIter_onUnit, dmaStart_onUnit, dmaAt_setDma_same, dmaAt_setDma_same, setDma_setDma, setDma_setDma]
  rfl

end

section
variable {s : State} {u ch : Nat} {m : Memory} {d : Dev} {p : Lpspi} {es : List Entry}

section
variable (hdev : u < s.dev.length)
include hdev

theorem devAt_onUnit_of_lt : (s.onUnit u m d p es).devAt u = d := tget_tset_same _ _ _ hdev

theorem currentJob_onUnit_of_lt {j : Nat} (hcur : d.curJob = some j) : currentJob u (s.onUnit u m d p es) = .ok j := by
  simp [currentJob, devAt_onUnit_of_lt hdev, hcur]

/-- The receive descriptor of a channel that has frames (R256). -/
theorem rxDmaChannelInit_onUnit {j c : Nat} (hch : ch = (s.cfg.unitAt u).dmaRxCh) (hcur : d.curJob = some j)
    (hc : c = s.chanOf j d.rxChanIdx) (hlen : 0 < (s.chanAt c).length) :
    rxDmaChannelInit u (s.onUnit u m d p es) = .ok ((s.setDma ch (.armed (rxTcd s u c))).onUnit u m
      { d with receivedData := (s.chanAt c).length - chunk (s.chanAt c).length } p
      (es ++ [.dmaCfg ch (rxTcd s u c), .dmaStart ch])) := by
  subst hch hc
  simp only [rxDmaChannelInit, currentJob_onUnit_of_lt hdev hcur, res_ok_bind, devAt_onUnit_of_lt hdev, onUnit_chanOf, onUnit_chanAt,
    if_neg hlen.ne', setDev_onUnit, onUnit_cfg]
  exact congrArg _ (dmaStart_dmaCfg_onUnit ..)

end

/-- The transmit descriptor of a channel that has frames, after its command word (R254). -/
theorem txDmaChannelInit_onUnit {j c : Nat} {first : Bool} {d' : Dev} {p' : Lpspi} {es' : List Entry} (h : Alone s u)
    (hch : ch = (s.cfg.unitAt u).dmaTxCh) (hcur : d.curJob = some j) (hc : c = s.chanOf j d.txChanIdx) (hlen : 0 < (s.chanAt c).length)
    (hprogram : programJobChannel u first j c
      (s.onUnit u m { d with remainingData := (s.chanAt c).length - chunk (s.chanAt c).length, sentFrames := 0 } p es) =
        .ok (s.onUnit u m d' p' es')) :
    txDmaChannelInit u first (s.onUnit u m d p es) = .ok ((s.setDma ch (.armed (txTcd s u c))).onUnit u m d' p'
      (es' ++ [.dmaCfg ch (txTcd s u c), .dmaStart ch])) := by
  subst hch hc
  simp only [txDmaChannelInit, currentJob_onUnit h hcur, res_ok_bind, devAt_onUnit h, onUnit_chanOf, onUnit_chanAt,
    if_neg hlen.ne', setDev_onUnit, hprogram, onUnit_cfg]
  exact congrArg _ (dmaStart_dmaCfg_onUnit ..)

end

/-! The start of a job on a DMA unit (R252) -/

/-- No DMA channel has two uses (10_state.md R35). -/
theorem Fit.dmaChannels_ne {s : State} (h : Fit s) {u : Nat} (hu : u < s.cfg.numUnits) (hdma : (s.cfg.unitAt u).dmaUsed = true) :
    (s.cfg.unitAt u).dmaTxCh ≠ (s.cfg.unitAt u).dmaRxCh := by
  have hnodup := cfgWellFormed_bindings_nodup h.wf
  rw [List.map_flatMap] at hnodup
  obtain ⟨hunits, -⟩ := List.nodup_flatMap.1 hnodup
  simpa [bindings, hdma] using hunits u (List.mem_range.2 hu)

/-- Settles O43: the receive descriptor, then the first channel's registers and the transmit descriptor. -/
theorem dmaJobStart_spec : Obligations.DmaJobStart := by
  unfold Obligations.DmaJobStart
  intro s u j c sinc dinc src dst ws tt tr hcalm htables hinit hj hu hdma hc hlen hbuf hsend hkeep hws htt htr
  have hfit := fit_of_tablesOk htables hinit
  have hlt : u < s.cfg.numUnits := hu ▸ hfit.unitOf_lt hj
  have halone : Alone s u := .of_tablesOk htables hinit hlt hcalm
  have hne := hfit.dmaChannels_ne hlt hdma
  rw [← txTcd_of_sendsFrom hsend] at htt
  rw [← rxTcd_of_keepsAt hkeep] at htr
  have hstart := jobStart_eq halone hu hbuf rfl
  rw [if_pos hdma, dmaJobStart, rxDmaChannelInit_onUnit halone.dev rfl rfl hc hlen, res_ok_bind, ← htr,
    txDmaChannelInit_onUnit (s := s.setDma (s.cfg.unitAt u).dmaRxCh (.armed tr)) (halone.setDma _ _) rfl rfl hc hlen
      (programChannel_first (halone.setDma _ _) _ _ _ _)] at hstart
  subst htt hws
  refine ⟨_, hstart, ?state, dmaAt_setDma_same _ _ _, (dmaAt_setDma_ne _ _ _ _ hne).trans (dmaAt_setDma_same _ _ _),
    fun ch hother => ?others⟩
  case state =>
    simp only [State.onUnit, List.append_assoc]
    rfl
  case others =>
    obtain ⟨htx, hrx⟩ := hother
    exact (dmaAt_setDma_ne _ _ _ _ htx.symm).trans (dmaAt_setDma_ne _ _ _ _ hrx.symm)

/-! The completion events (R258, R260) -/

theorem dmaServed_iff {s : State} {u ch : Nat} : s.dmaServed u ch = true ↔
    s.eventServed u = true ∧ (s.cfg.unitAt u).dmaUsed = true ∧ (s.dmaAt ch).done = true := by
  simp [State.dmaServed]

section
variable {s : State} {u ch : Nat} (htables : s.tablesOk = true) (hserved : s.dmaServed u ch = true)
include htables hserved

theorem Fit.of_dmaServed : Fit s := by
  obtain ⟨hevent, -⟩ := dmaServed_iff.1 hserved
  exact fit_of_tablesOk htables (eventServed_init hevent)

theorem dev_lt_of_dmaServed : u < s.dev.length := by
  obtain ⟨hevent, -⟩ := dmaServed_iff.1 hserved
  exact (Fit.of_dmaServed htables hserved).dev_lt (eventServed_lt hevent)

theorem Alone.of_dmaServed (hcalm : s.undisturbed = true) : Alone s u := by
  obtain ⟨hevent, -⟩ := dmaServed_iff.1 hserved
  exact .of_tablesOk htables (eventServed_init hevent) (eventServed_lt hevent) hcalm

end

/-- A cursor that has a next channel does not wrap (00_scope.md R15). -/
theorem Fit.countUp_of_next {s : State} (h : Fit s) {j k : Nat} (hj : j < s.cfg.numJobs) (hnext : k + 1 < s.numChannelsOf j) :
    countUp k = .ok (k + 1) := by
  have hcount := h.channelCount_le hj
  exact countUp_eq_ok.2 ⟨by omega, rfl⟩

section
variable {s : State} {unit : BitVec 4} {u ch : Nat} (hu : u = unit.toNat) (hserved : s.dmaServed u ch = true)
include hu hserved

/-- A transmit completion that is served dispatches; then the job is finished if both its sides are done (R258). -/
theorem exec_evDmaTx {t : State} (hch : ch = (s.cfg.unitAt u).dmaTxCh) (ht : dmaTxDispatch u s = .ok t) :
    exec (.evDmaTx unit) s = outcome (finishIfDone s.boundary (Ctx.foreground.enterHandler u) u t) := by
  subst hch hu
  rw [show exec (.evDmaTx unit) s = execEvDmaTx unit s from rfl, execEvDmaTx, handleDmaTx, if_pos hserved, isrDmaTx, ht, res_ok_bind]

/-- A receive completion that is served does so too (R260). -/
theorem exec_evDmaRx {t : State} (hch : ch = (s.cfg.unitAt u).dmaRxCh) (ht : dmaRxDispatch u s = .ok t) :
    exec (.evDmaRx unit) s = outcome (finishIfDone s.boundary (Ctx.foreground.enterHandler u) u t) := by
  subst hch hu
  rw [show exec (.evDmaRx unit) s = execEvDmaRx unit s from rfl, execEvDmaRx, handleDmaRx, if_pos hserved, isrDmaRx, ht, res_ok_bind]

end

/-- While a side of a job is not done nothing is finished. -/
theorem finishIfDone_open {b : Boundary} {ctx : Ctx} {s : State} {u ch : Nat} {x : DmaChan} {m : Memory} {d : Dev} {p : Lpspi}
    {es : List Entry} (hdev : u < s.dev.length) (hopen : d.txDone = false ∨ d.rxDone = false) :
    outcome (finishIfDone b ctx u ((s.setDma ch x).onUnit u m d p es)) = .next ((s.setDma ch x).onUnit u m d p es) := by
  rw [finishIfDone, devAt_onUnit_of_lt (s := s.setDma ch x) hdev, if_neg, outcome_ok]
  rintro ⟨htx, hrx⟩
  obtain h | h := hopen
  · simp [h] at htx
  · simp [h] at hrx

/-- `Dev[u]` after the count of the frames sent at a transmit completion of job `j` (R258). -/
def State.devCounted (s : State) (u j : Nat) : Dev :=
  { s.devAt u with sentFrames := (s.chanAt (s.chanOf j (s.devAt u).txChanIdx)).length - (s.devAt u).remainingData }

section
variable {s : State} {u j ch : Nat} (hcur : (s.devAt u).curJob = some j)

section
variable (hdev : u < s.dev.length) (hch : ch = (s.cfg.unitAt u).dmaTxCh)
include hcur hdev hch

theorem dmaTxDispatch_eq : dmaTxDispatch u s =
    if 0 < (s.devAt u).remainingData then
      .ok (reload ch (s.devAt u).remainingData (s.acked u ch
        { s.devCounted u j with remainingData := (s.devAt u).remainingData - chunk (s.devAt u).remainingData }))
    else if (s.devAt u).txChanIdx + 1 < s.numChannelsOf j then do
      let k ← countUp (s.devAt u).txChanIdx
      txDmaChannelInit u false (s.acked u ch { s.devCounted u j with txChanIdx := k })
    else clearContCS u (s.acked u ch (s.devCounted u j)) >>= fun t => .ok (t.setDev u { t.devAt u with txDone := true }) := by
  subst hch
  have hback : ∀ ch d, (s.acked u ch d).devAt u = d := fun _ _ => devAt_onUnit_of_lt hdev
  have hjob : currentJob u s = .ok j := by simp [currentJob, hcur]
  simp only [dmaTxDispatch, hjob, res_ok_bind, dmaAck_eq s u, hback, setDev_acked]
  rfl

/-- With frames left the next pass is loaded. -/
theorem dmaTxDispatch_reload {r : Nat} (hr : r = (s.devAt u).remainingData) (hleft : 0 < r) :
    dmaTxDispatch u s = .ok ((s.setDma ch ((s.dmaAt ch).reloaded r)).onUnit u s.mem
      { s.devCounted u j with remainingData := r - chunk r } (s.lpspiAt u) [.dmaAck ch, .dmaSetIter ch (chunk r), .dmaStart ch]) := by
  rw [dmaTxDispatch_eq hcur hdev hch, ← hr, if_pos hleft, reload_acked]

end

section
variable (h : Alone s u) (hch : ch = (s.cfg.unitAt u).dmaTxCh) (hnone : (s.devAt u).remainingData = 0)
include hcur h hch hnone

/-- With none left the transmit side goes on to the next channel: its command word, where it differs, and its descriptor. -/
theorem dmaTxDispatch_next {c : Nat} {cmd : CmdWord} {ws : List RegWrite} (hnext : (s.devAt u).txChanIdx + 1 < s.numChannelsOf j)
    (hup : countUp (s.devAt u).txChanIdx = .ok ((s.devAt u).txChanIdx + 1)) (hc : c = s.chanOf j ((s.devAt u).txChanIdx + 1))
    (hlen : 0 < (s.chanAt c).length) (hcmd : cmd = chanCmd s.cfg j c (s.devAt u).contCSActive)
    (hws : ws = if cmd = (s.devAt u).cmdWord then [] else [.txcmd cmd]) :
    dmaTxDispatch u s = .ok ((s.setDma ch (.armed (txTcd s u c))).onUnit u s.mem { s.devAt u with
        txChanIdx := (s.devAt u).txChanIdx + 1, sentFrames := 0
        remainingData := (s.chanAt c).length - chunk (s.chanAt c).length, cmdWord := cmd }
      ((s.lpspiAt u).writes s.params.fifoSize s.freeCount ws)
      ([.dmaAck ch] ++ ws.map (.regWrite u) ++ [.dmaCfg ch (txTcd s u c), .dmaStart ch])) := by
  subst hcmd
  rw [dmaTxDispatch_eq hcur h.dev hch, if_neg (Nat.not_lt.2 hnone.le), if_pos hnext, hup, res_ok_bind, State.acked,
    txDmaChannelInit_onUnit (d := { s.devCounted u j with txChanIdx := (s.devAt u).txChanIdx + 1 }) (h.setDma _ _) hch hcur hc hlen
      (programChannel_next (h.setDma _ _) _ _ _ _ hws), setDma_setDma]
  rfl

/-- After the last channel the chip-select clear ends the transmit side (41_engine_fifo.md R226). -/
theorem dmaTxDispatch_last {ws : List RegWrite} (hlast : s.numChannelsOf j ≤ (s.devAt u).txChanIdx + 1)
    (hws : ws = if (s.devAt u).contCSActive = true then [.txcmd { (s.devAt u).cmdWord with cont := false }] else []) :
    dmaTxDispatch u s = .ok ((s.setDma ch { s.dmaAt ch with done := false }).onUnit u s.mem { s.devAt u with
        sentFrames := (s.chanAt (s.chanOf j (s.devAt u).txChanIdx)).length, txDone := true, contCSActive := false
        cmdWord := if (s.devAt u).contCSActive = true then { (s.devAt u).cmdWord with cont := false } else (s.devAt u).cmdWord }
      ((s.lpspiAt u).writes s.params.fifoSize s.freeCount ws) ([.dmaAck ch] ++ ws.map (.regWrite u))) := by
  have hcounted : s.devCounted u j = { s.devAt u with sentFrames := (s.chanAt (s.chanOf j (s.devAt u).txChanIdx)).length } := by
    simp [State.devCounted, hnone]
  rw [dmaTxDispatch_eq hcur h.dev hch, if_neg (Nat.not_lt.2 hnone.le), if_neg (Nat.not_lt.2 hlast), State.acked,
    clearContCS_onUnit (h.setDma _ _) (d := s.devCounted u j) hws, res_ok_bind, devAt_onUnit (h.setDma _ _), setDev_onUnit, hcounted]
  rfl

end

section
variable (hdev : u < s.dev.length) (hch : ch = (s.cfg.unitAt u).dmaRxCh)
include hcur hdev hch

theorem dmaRxDispatch_eq : dmaRxDispatch u s =
    if 0 < (s.devAt u).receivedData then
      .ok (reload ch (s.devAt u).receivedData (s.acked u ch
        { s.devAt u with receivedData := (s.devAt u).receivedData - chunk (s.devAt u).receivedData }))
    else if (s.devAt u).rxChanIdx + 1 < s.numChannelsOf j then do
      let k ← countUp (s.devAt u).rxChanIdx
      rxDmaChannelInit u (s.acked u ch { s.devAt u with rxChanIdx := k })
    else .ok (s.acked u ch { s.devAt u with rxDone := true }) := by
  subst hch
  have hback : ∀ ch d, (s.acked u ch d).devAt u = d := fun _ _ => devAt_onUnit_of_lt hdev
  have hjob : currentJob u s = .ok j := by simp [currentJob, hcur]
  simp only [dmaRxDispatch, hjob, res_ok_bind, dmaAck_eq s u, hback, setDev_acked]
  rfl

/-- With frames left the next pass is loaded. -/
theorem dmaRxDispatch_reload {r : Nat} (hr : r = (s.devAt u).receivedData) (hleft : 0 < r) :
    dmaRxDispatch u s = .ok ((s.setDma ch ((s.dmaAt ch).reloaded r)).onUnit u s.mem
      { s.devAt u with receivedData := r - chunk r } (s.lpspiAt u) [.dmaAck ch, .dmaSetIter ch (chunk r), .dmaStart ch]) := by
  rw [dmaRxDispatch_eq hcur hdev hch, ← hr, if_pos hleft, reload_acked]

variable (hnone : (s.devAt u).receivedData = 0)
include hnone

/-- With none left the receive side goes on to the next channel's descriptor. -/
theorem dmaRxDispatch_next {c : Nat} (hnext : (s.devAt u).rxChanIdx + 1 < s.numChannelsOf j)
    (hup : countUp (s.devAt u).rxChanIdx = .ok ((s.devAt u).rxChanIdx + 1)) (hc : c = s.chanOf j ((s.devAt u).rxChanIdx + 1))
    (hlen : 0 < (s.chanAt c).length) :
    dmaRxDispatch u s = .ok ((s.setDma ch (.armed (rxTcd s u c))).onUnit u s.mem { s.devAt u with
        rxChanIdx := (s.devAt u).rxChanIdx + 1, receivedData := (s.chanAt c).length - chunk (s.chanAt c).length }
      (s.lpspiAt u) [.dmaAck ch, .dmaCfg ch (rxTcd s u c), .dmaStart ch]) := by
  rw [dmaRxDispatch_eq hcur hdev hch, if_neg (Nat.not_lt.2 hnone.le), if_pos hnext, hup, res_ok_bind, State.acked,
    rxDmaChannelInit_onUnit (s := s.setDma ch _) (d := { s.devAt u with rxChanIdx := (s.devAt u).rxChanIdx + 1 }) hdev hch hcur hc hlen,
    setDma_setDma]
  rfl

/-- After the last channel the receive side is done. -/
theorem dmaRxDispatch_last (hlast : s.numChannelsOf j ≤ (s.devAt u).rxChanIdx + 1) :
    dmaRxDispatch u s = .ok ((s.setDma ch { s.dmaAt ch with done := false }).onUnit u s.mem { s.devAt u with rxDone := true }
      (s.lpspiAt u) [.dmaAck ch]) := by
  rw [dmaRxDispatch_eq hcur hdev hch, if_neg (Nat.not_lt.2 hnone.le), if_neg (Nat.not_lt.2 hlast), State.acked]

end

end

/-- Settles O54: the side that the event is for is still open afterwards, so that its dispatch is all that happens. -/
theorem dmaCompletionReloads : Obligations.DmaCompletionReloads := by
  unfold Obligations.DmaCompletionReloads
  intro s unit u j hu htables hcur
  refine ⟨fun ch r hch hr hserved hopen => ⟨fun hleft => ?txReload, ?txNext⟩,
    fun ch r hch hr hserved hopen => ⟨fun hleft => ?rxReload, ?rxNext⟩⟩
  case txReload =>
    have hdev := dev_lt_of_dmaServed htables hserved
    have hexec := exec_evDmaTx hu hserved hch (dmaTxDispatch_reload hcur hdev hch hr hleft)
    rw [finishIfDone_open hdev (.inl (by exact hopen)), onUnit_setDma_sameLpspi, State.devCounted, ← hr] at hexec
    exact ⟨_, hexec, rfl, setDma_dmaAt _ _ _⟩
  case txNext =>
    intro c inc src cmd ws tcd hnone hcalm hnext hc hlen hj hsend hcmd hws htcd
    have halone := Alone.of_dmaServed htables hserved hcalm
    have hup := (Fit.of_dmaServed htables hserved).countUp_of_next hj hnext
    have hexec := exec_evDmaTx hu hserved hch (dmaTxDispatch_next hcur halone hch (hr ▸ hnone) hnext hup hc hlen hcmd hws)
    rw [finishIfDone_open halone.dev (.inl (by exact hopen)), txTcd_of_sendsFrom hsend, ← htcd] at hexec
    refine ⟨_, hexec, ?_, setDma_dmaAt _ _ _⟩
    simp only [State.onUnit, List.append_assoc]
    rfl
  case rxReload =>
    have hdev := dev_lt_of_dmaServed htables hserved
    have hexec := exec_evDmaRx hu hserved hch (dmaRxDispatch_reload hcur hdev hch hr hleft)
    rw [finishIfDone_open hdev (.inr (by exact hopen)), onUnit_setDma_sameLpspi] at hexec
    exact ⟨_, hexec, rfl, setDma_dmaAt _ _ _⟩
  case rxNext =>
    intro c inc dst tcd hnone hnext hc hlen hj hkeep htcd
    have hdev := dev_lt_of_dmaServed htables hserved
    have hup := (Fit.of_dmaServed htables hserved).countUp_of_next hj hnext
    have hexec := exec_evDmaRx hu hserved hch (dmaRxDispatch_next hcur hdev hch (hr ▸ hnone) hnext hup hc hlen)
    rw [finishIfDone_open hdev (.inr (by exact hopen)), onUnit_setDma_sameLpspi, rxTcd_of_keepsAt hkeep, ← htcd] at hexec
    exact ⟨_, hexec, rfl, setDma_dmaAt _ _ _⟩

/-! The last pass of a job (R258, R260; 45_scheduler.md R345) -/

/-- A job both of whose sides are done is finished; the interrupt was off already (41_engine_fifo.md R218, R236). -/
theorem finishIfDone_irqDisabled {s : State} {u j n : Nat} {ctx : Ctx} {m : Memory} {d : Dev} {p : Lpspi} {es : List Entry}
    (h : Alone s u) (hcur : d.curJob = some j) (htx : d.txDone = true) (hrx : d.rxDone = true) (hirq : d.irqEnabled = false)
    (hresult : (s.jobAt j).result ≠ .ok) (howner : (s.jobAt j).owner ≠ none) :
    finishIfDone (deliver n) ctx u (s.onUnit u m d p es) =
      jobTransferFinished (deliver n) ctx j (s.onUnit u m { d with curJob := none } p es) := by
  have hguard : finishGuard u (s.onUnit u m d p es) = (some j, s.onUnit u m { d with curJob := none } p es) := by
    simp [finishGuard, irqOff, devAt_onUnit h, hcur, hresult, howner, hirq]
  rw [finishIfDone, devAt_onUnit h, if_pos ⟨htx, hrx⟩, jobFinishGuarded, deliver_undisturbed h.onUnit, res_ok_bind]
  simp only [hguard]

/-- Settles O55: the transmit side is closed by the chip-select clear, the receive side by the end of the job. -/
theorem dmaLastPass : Obligations.DmaLastPass := by
  unfold Obligations.DmaLastPass
  intro s unit j hcalm htables hcur
  refine ⟨fun ch ws hch hserved hnone hlast hopen hws => ?transmit,
    fun ch q hch hserved hnone hlast htx hj hunit hresult howner hq hcancelled hremaining hidle hirq => ?receive⟩
  case transmit =>
    have halone := Alone.of_dmaServed htables hserved hcalm
    have hexec := exec_evDmaTx rfl hserved hch (dmaTxDispatch_last hcur halone hch hnone hlast hws)
    rw [finishIfDone_open halone.dev (.inr (by exact hopen))] at hexec
    refine ⟨_, hexec, ?_, setDma_dmaAt _ _ _⟩
    simp only [State.onUnit, List.append_assoc]
    rfl
  case receive =>
    have halone := Alone.of_dmaServed htables hserved hcalm
    have hexec := exec_evDmaRx rfl hserved hch (dmaRxDispatch_last hcur halone.dev hch hnone hlast)
    rw [← hunit] at hidle
    rw [State.boundary, finishIfDone_irqDisabled (d := { s.devAt unit.toNat with rxDone := true }) (halone.setDma _ _) hcur htx rfl hirq
      hresult (by simp [howner]),
      jobTransferFinished_last (halone.setDma _ _).onUnit howner (finishOne_last hcancelled hremaining) hidle hcancelled hremaining,
      outcome_ok, onUnit_setDma_sameLpspi] at hexec
    refine ⟨_, hexec, ?_, setDma_dmaAt _ _ _⟩
    rw [← hunit]
    rfl

end Sys2Proof.Machine

/-! SUPPORT and PROOFS of the polling and mode family (43_polling_and_mode.md): the two mode commands, and one pass of
`MAIN_FUNCTION_HANDLING` over the units, with what it makes of the one unit that it polls. -/

namespace Sys2Proof.Machine

/-! The mode of one unit (R291) -/

theorem hasAsync_of_ne_syncOnly {s : State} (h : s.params.level ≠ .syncOnly) : s.hasAsync = true := decide_eq_true h

section
variable {s : State} {u : Nat} {m : Mode} (hlevel : s.params.level ≠ .syncOnly) (hon : s.drvInit = true)
include hlevel hon

theorem cmdSetHwunitAsyncMode_badUnit (hunit : s.cfg.numUnits ≤ u ∨ (s.cfg.unitAt u).isSync = true) :
    cmdSetHwunitAsyncMode u m s = .ok (s.says (s.errors 0x0E .paramUnit) 1) := by
  have hbad : s.unitInRange u = false ∨ (s.cfg.unitAt u).isSync = true := hunit.imp_left fun h => decide_eq_false h.not_gt
  simp [cmdSetHwunitAsyncMode, hasAsync_of_ne_syncOnly hlevel, hon, hbad, fail_eq_says, eNotOk]

variable (hu : u < s.cfg.numUnits) (hasync : (s.cfg.unitAt u).isSync = false)
include hu hasync

theorem cmdSetHwunitAsyncMode_busy (hbusy : (s.unitAt u).status = .busy) : cmdSetHwunitAsyncMode u m s = .ok (s.says [] 1) := by
  simp [cmdSetHwunitAsyncMode, hasAsync_of_ne_syncOnly hlevel, hon, State.unitInRange, hu, hasync, hbusy, respond_eq_says, eNotOk]

theorem cmdSetHwunitAsyncMode_done (hfree : (s.unitAt u).status ≠ .busy) :
    cmdSetHwunitAsyncMode u m s = .ok ((setMode u m s).says [] 0) := by
  simp [cmdSetHwunitAsyncMode, hasAsync_of_ne_syncOnly hlevel, hon, State.unitInRange, hu, hasync, hfree, respond_eq_says, eOk]

end

/-- Settles O30: each case is the answer of the command's equation for it. -/
theorem setHwunitAsyncModeCases : Obligations.SetHwunitAsyncModeCases := by
  unfold Obligations.SetHwunitAsyncModeCases
  exact fun s k m hlevel hon => ⟨fun hunit => congrArg outcome (cmdSetHwunitAsyncMode_badUnit hlevel hon hunit), fun hu hasync =>
    ⟨fun hbusy => congrArg outcome (cmdSetHwunitAsyncMode_busy hlevel hon hu hasync hbusy),
      fun hfree => congrArg outcome (cmdSetHwunitAsyncMode_done hlevel hon hu hasync hfree)⟩⟩

/-! The mode of all asynchronous units (R290) -/

/-- The asynchronous units of a list, in its order. -/
def State.asyncUnits (s : State) (us : List Nat) : List Nat := us.filter fun u => !(s.cfg.unitAt u).isSync

theorem mem_asyncUnits {s : State} {us : List Nat} {u : Nat} : u ∈ s.asyncUnits us ↔ u ∈ us ∧ (s.cfg.unitAt u).isSync = false := by
  simp [State.asyncUnits]

theorem updateEach_length {α : Type} [Inhabited α] (f : Nat → α → α) (us : List Nat) (l : List α) :
    (updateEach f us l).length = l.length := by
  induction us generalizing l with
  | nil => rfl
  | cons u rest ih => rw [updateEach, ih, tset_length]

/-- `setModes` writes the mode into the records of the list's asynchronous units. -/
theorem setModes_eq (m : Mode) (us : List Nat) (s : State) : setModes m us s =
    { s with dev := updateEach (fun _ d => { d with asyncMode := m }) (s.asyncUnits us) s.dev } := by
  induction us generalizing s with
  | nil => rfl
  | cons u rest ih =>
    by_cases hsync : (s.cfg.unitAt u).isSync = true
    · rw [setModes, if_pos hsync, ih]; simp [State.asyncUnits, hsync]
    · rw [setModes, if_neg hsync, ih]; simp [State.asyncUnits, hsync, updateEach, setMode, State.setDev, State.devAt]

section
variable {s : State} {m : Mode}

theorem asyncUnitBusy_iff : s.asyncUnitBusy = true ↔
    ∃ u, u < s.cfg.numUnits ∧ (s.cfg.unitAt u).isSync = false ∧ (s.unitAt u).status = .busy := by
  simp [State.asyncUnitBusy]

variable (hlevel : s.params.level ≠ .syncOnly) (hon : s.drvInit = true)
include hlevel hon

theorem cmdSetAsyncMode_busy (hbusy : s.asyncUnitBusy = true) : cmdSetAsyncMode m s = .ok (s.says [] 1) := by
  simp [cmdSetAsyncMode, hasAsync_of_ne_syncOnly hlevel, hon, hbusy, respond_eq_says, eNotOk]

theorem cmdSetAsyncMode_done (hfree : ¬ s.asyncUnitBusy = true) :
    cmdSetAsyncMode m s = .ok ((setModes m (List.range s.cfg.numUnits) s).says [] 0) := by
  simp [cmdSetAsyncMode, hasAsync_of_ne_syncOnly hlevel, hon, hfree, respond_eq_says, eOk]

end

/-- Settles O29: `setModes_eq` gives the one table that is written, and which of its entries are. -/
theorem setAsyncModeAllOrNone : Obligations.SetAsyncModeAllOrNone := by
  unfold Obligations.SetAsyncModeAllOrNone
  refine fun s m hlevel hon => ⟨fun hbusy => congrArg outcome (cmdSetAsyncMode_busy hlevel hon (asyncUnitBusy_iff.2 hbusy)),
    fun hfree => ?_⟩
  have hnone : ¬ s.asyncUnitBusy = true := fun hany => by
    obtain ⟨u, hu, hasync, hbusy⟩ := asyncUnitBusy_iff.1 hany
    exact hfree u hu hasync hbusy
  have hexec : exec (.setAsyncMode m) s = _ := congrArg outcome (cmdSetAsyncMode_done hlevel hon hnone)
  rw [setModes_eq] at hexec
  refine ⟨_, hexec, by simp [State.says], updateEach_length _ _ _, fun u hu hasync hlen => ?written, fun u hu => ?others⟩
  case written =>
    exact tget_updateEach_of_mem (List.nodup_range.filter _) (mem_asyncUnits.2 ⟨List.mem_range.2 hu, hasync⟩) hlen
  case others =>
    refine tget_updateEach_of_notMem fun hmem => ?_
    obtain ⟨hrange, hasync⟩ := mem_asyncUnits.1 hmem
    obtain hout | hsync := hu
    · exact hout.not_gt (List.mem_range.1 hrange)
    · exact absurd hsync (by simp [hasync])

/-! A pass over the units (R280) -/

theorem pollable_iff {s : State} {u : Nat} : s.pollable u = true ↔ s.toPoll u := by
  simp [State.pollable, State.toPoll, Option.isSome_iff_ne_none]

/-- `t` is as `s` in all that decides whether a unit other than `u` is polled, and in the inputs that still wait. -/
structure SparesOthers (s t : State) (u : Nat) : Prop where
  inputs : t.inputs = s.inputs
  cfg : t.cfg = s.cfg
  unit : t.unit = s.unit
  dev : ∀ v, v ≠ u → t.devAt v = s.devAt v

theorem SparesOthers.trans {s t r : State} {u : Nat} (h : SparesOthers s t u) (h' : SparesOthers t r u) : SparesOthers s r u :=
  ⟨h'.inputs.trans h.inputs, h'.cfg.trans h.cfg, h'.unit.trans h.unit, fun v hv => (h'.dev v hv).trans (h.dev v hv)⟩

theorem SparesOthers.toPoll {s t : State} {u v : Nat} (h : SparesOthers s t u) (hv : v ≠ u) : t.toPoll v ↔ s.toPoll v := by
  simp only [State.toPoll, State.unitAt, h.cfg, h.unit, h.dev v hv]

theorem onUnit_sameUnit (s : State) (u : Nat) (es : List Entry) :
    s.onUnit u s.mem (s.devAt u) (s.lpspiAt u) es = { s with trace := s.trace ++ es } := by
  simp [State.onUnit, State.devAt, State.lpspiAt, set_tget_self]

theorem onUnit_sparesOthers (s : State) (u : Nat) (m : Memory) (d : Dev) (p : Lpspi) (es : List Entry) :
    SparesOthers s (s.onUnit u m d p es) u := ⟨rfl, rfl, rfl, fun _ hv => tget_tset_ne _ _ _ _ hv.symm⟩

section
variable {s : State} {us : List Nat} {n : Nat} {ctx : Ctx} (hcalm : s.undisturbed = true)
include hcalm

/-- A unit that is not to be polled is passed over. -/
theorem pollUnits_skip {u : Nat} (hu : ¬ s.toPoll u) : pollUnits (deliver n) ctx (u :: us) s = pollUnits (deliver n) ctx us s := by
  rw [pollUnits, deliver_undisturbed hcalm, res_ok_bind, pollUnit, if_neg fun h => hu (pollable_iff.1 h.1), res_ok_bind]

theorem pollUnits_none (hnone : ∀ u ∈ us, ¬ s.toPoll u) : pollUnits (deliver n) ctx us s = .ok s := by
  induction us with
  | nil => rfl
  | cons u rest ih =>
    obtain ⟨hu, hrest⟩ := List.forall_mem_cons.1 hnone
    rw [pollUnits_skip hcalm hu, ih hrest]

/-- When one unit of a list is to be polled, the pass is that unit's `IrqPoll`. -/
theorem pollUnits_one {u : Nat} {t : State} (hnodup : us.Nodup) (hu : u ∈ us) (hpoll : s.toPoll u) (hctx : u ∉ ctx.units)
    (hothers : ∀ v ∈ us, v ≠ u → ¬ s.toPoll v) (ht : irqPoll (deliver n) ctx u s = .ok t) (hspares : SparesOthers s t u) :
    pollUnits (deliver n) ctx us s = .ok t := by
  induction us with
  | nil => cases hu
  | cons v rest ih =>
    obtain ⟨hv, hnodup⟩ := List.nodup_cons.1 hnodup
    obtain ⟨hhead, hothers⟩ := List.forall_mem_cons.1 hothers
    by_cases heq : v = u
    · subst heq
      have hnone : ∀ w ∈ rest, ¬ t.toPoll w := fun w hw => by
        have hne : w ≠ v := ne_of_mem_of_not_mem hw hv
        exact mt (hspares.toPoll hne).1 (hothers w hw hne)
      rw [pollUnits, deliver_undisturbed hcalm, res_ok_bind, pollUnit, if_pos ⟨pollable_iff.2 hpoll, hctx⟩, ht, res_ok_bind]
      exact pollUnits_none (undisturbed_of_inputs hcalm hspares.inputs) hnone
    · rw [pollUnits_skip hcalm (hhead heq)]
      exact ih hnodup ((List.mem_cons.1 hu).resolve_left (Ne.symm heq)) hothers

end

theorem exec_mainFunctionHandling_none {s : State} (hcalm : s.undisturbed = true) (hlevel : s.params.level ≠ .syncOnly)
    (hon : s.drvInit = true) (hnone : ∀ u, u < s.cfg.numUnits → ¬ s.toPoll u) :
    exec .mainFunctionHandling s = .next (s.says [] 0) := by
  have hpass := pollUnits_none (n := s.inputs.length) (ctx := Ctx.foreground) hcalm fun u hu => hnone u (List.mem_range.1 hu)
  rw [exec_eq_runInstr, State.boundary, runInstr, cmdMainFunctionHandling]
  simp only [hasAsync_of_ne_syncOnly hlevel, hon, hpass, Bool.true_eq_false, if_false, res_ok_bind, respond_eq_says, outcome_ok]

section
variable {s t : State} {u : Nat} (hcalm : s.undisturbed = true) (hpolls : s.pollsOnly u) (hspares : SparesOthers s t u)
include hcalm hpolls hspares

theorem exec_mainFunctionHandling_one (ht : irqPoll (deliver s.inputs.length) Ctx.foreground u s = .ok t) :
    exec .mainFunctionHandling s = .next (respond 0 t) := by
  obtain ⟨hlevel, hon, hu, hpoll, hothers⟩ := hpolls
  have hpass := pollUnits_one hcalm List.nodup_range (List.mem_range.2 hu) hpoll List.not_mem_nil
    (fun v hv => hothers v (List.mem_range.1 hv)) ht hspares
  rw [exec_eq_runInstr, State.boundary, runInstr, cmdMainFunctionHandling]
  simp only [hasAsync_of_ne_syncOnly hlevel, hon, hpass, Bool.true_eq_false, if_false, res_ok_bind, outcome_ok]

theorem exec_mainFunctionHandling_fifo (hdma : (s.cfg.unitAt u).dmaUsed = false)
    (ht : irqPollFifo (deliver s.inputs.length) (Ctx.foreground.enterPoll u) u s = .ok t) :
    exec .mainFunctionHandling s = .next (respond 0 t) :=
  exec_mainFunctionHandling_one hcalm hpolls hspares (by rw [irqPoll, if_neg (by simp [hdma]), ht])

theorem exec_mainFunctionHandling_dma (hdma : (s.cfg.unitAt u).dmaUsed = true)
    (ht : irqPollDma (deliver s.inputs.length) (Ctx.foreground.enterPoll u) u s = .ok t) :
    exec .mainFunctionHandling s = .next (respond 0 t) :=
  exec_mainFunctionHandling_one hcalm hpolls hspares (by rw [irqPoll, if_pos hdma, ht])

end

theorem respond_onUnit (s : State) (u : Nat) (m : Memory) (d : Dev) (p : Lpspi) (es : List Entry) (v : Word) :
    respond v (s.onUnit u m d p es) = s.onUnit u m d p (es ++ [.rsp v]) := emit_onUnit ..

/-! A poll of a FIFO unit (R282) -/

/-- What the reads of `STAT` and `FIFOSTAT` send out, when both are made. -/
def State.statusReads (s : State) (u : Nat) : List Entry :=
  [.regRead u (.stat (s.lpspiAt u).tdf (s.lpspiAt u).rdf (s.lpspiAt u).mbf),
    .regRead u (.fifostat (s.lpspiAt u).txCount (s.lpspiAt u).rxCount)]

section
variable {s : State} {u : Nat} {b : Boundary} {ctx : Ctx} (hcalm : s.undisturbed = true)
include hcalm

theorem irqPollFifo_noFlag (htdf : (s.lpspiAt u).tdf = false) (hrdf : (s.lpspiAt u).rdf = false) :
    irqPollFifo b ctx u s = .ok (s.emit (.regRead u (.stat false false (s.lpspiAt u).mbf))) := by
  simp [irqPollFifo, readStat_undisturbed hcalm, htdf, hrdf]

/-- With a flag set the unit is dispatched on the counts that `FIFOSTAT` gives. -/
theorem irqPollFifo_flag (hflag : (s.lpspiAt u).tdf = true ∨ (s.lpspiAt u).rdf = true) : irqPollFifo b ctx u s =
    (fifoDispatch u (s.lpspiAt u).txCount (s.lpspiAt u).rxCount
      (s.onUnit u s.mem (s.devAt u) (s.lpspiAt u) (s.statusReads u)) >>= finishIfDone b ctx u) := by
  have hstat : (s.emit (.regRead u (.stat (s.lpspiAt u).tdf (s.lpspiAt u).rdf (s.lpspiAt u).mbf))).undisturbed = true := hcalm
  have hreads : s.onUnit u s.mem (s.devAt u) (s.lpspiAt u) (s.statusReads u) =
      (s.emit (.regRead u (.stat (s.lpspiAt u).tdf (s.lpspiAt u).rdf (s.lpspiAt u).mbf))).emit
        (.regRead u (.fifostat (s.lpspiAt u).txCount (s.lpspiAt u).rxCount)) := by
    simp [onUnit_sameUnit, State.statusReads, State.emit]
  rw [irqPollFifo, readStat_undisturbed hcalm, res_ok_bind, hreads]
  simp only [if_pos hflag, isrFifoRx, readFifoStat_undisturbed hstat, res_ok_bind, emit_lpspiAt]

end

/-- A dispatch on a master to which no frame has come in does nothing (41_engine_fifo.md R221). -/
theorem masterDispatch_empty {u : Nat} {s : State} : masterDispatch u 0 s = .ok s := if_neg fun h => absurd h.2 (Nat.lt_irrefl 0)

theorem finishIfDone_sideOpen {b : Boundary} {ctx : Ctx} {u : Nat} {s : State}
    (hopen : (s.devAt u).txDone = false ∨ (s.devAt u).rxDone = false) :
    finishIfDone b ctx u s = .ok s := by
  refine if_neg ?_
  rintro ⟨htx, hrx⟩
  obtain h | h := hopen
  · simp [h] at htx
  · simp [h] at hrx

section
variable {s : State} {u j cr ct : Nat} {es : List Entry} (halone : Alone s u)
include halone

/-- A dispatch in the middle of a channel moves one frame each way (R221). -/
theorem fifoDispatch_midChannel {v : Word} {rest : List Word} (hmid : s.midChannel u j cr ct) (hfifo : (s.lpspiAt u).rxFifo = v :: rest) :
    ∃ w, txFrameValue (s.setMem (s.keepFrame cr (s.rxIndex u cr) v s.mem)) ct (s.widthOf ct) (s.txIndex u ct) = .ok w ∧
      fifoDispatch u (s.lpspiAt u).txCount (s.lpspiAt u).rxCount (s.onUnit u s.mem (s.devAt u) (s.lpspiAt u) es) =
        .ok (s.onUnit u (s.keepFrame cr (s.rxIndex u cr) v s.mem) (((s.devAt u).received 1).sent 1)
          { s.lpspiAt u with rxFifo := rest, txFifo := (s.lpspiAt u).txFifo ++ [.frame w] }
          (es ++ [.regRead u (.rxdata v), .regWrite u (.txdata w)])) := by
  obtain ⟨hmaster, hcur, htx, hrx, hcr, hct, hrxLeft, hrxLen, htxLeft, htxLen, hready, hready', hsent, hroom⟩ := hmid
  obtain ⟨w, hw⟩ := txFrameValue_of_chanReady (i := s.txIndex u ct) hready' (by rw [State.txIndex]; omega)
    (s.keepFrame cr (s.rxIndex u cr) v s.mem)
  have hin := rxReadFrame_mid (m := s.mem) (es := es) halone hcur hcr hfifo hready hrxLeft hrxLen
  have hout := txWriteFrame_mid (d := (s.devAt u).received 1) (p := { s.lpspiAt u with rxFifo := rest })
    (es := es ++ [.regRead u (.rxdata v)]) halone hcur hct hsent hroom hw htxLeft
  rw [write_txdata_of_room (p := { s.lpspiAt u with rxFifo := rest }) hroom, List.append_assoc] at hout
  exact ⟨w, hw, (fifoDispatch_master hmaster).trans
    ((masterDispatch_exchange halone hrx (rxCount_pos hfifo) hin htx).trans hout)⟩

/-- A dispatch in the middle of a slave's channels drains and refills (R222). -/
theorem fifoDispatch_midSlave {m r : Nat} (hmid : s.midSlave u j cr ct m r) :
    ∃ ws : Nat → Word,
      (∀ i, i < r → txFrameValue (s.setMem (s.keepFrames cr (s.rxIndex u cr) ((s.lpspiAt u).rxFifo.take m) s.mem)) ct (s.widthOf ct)
        (s.txIndex u ct + i) = .ok (ws i)) ∧
      fifoDispatch u (s.lpspiAt u).txCount (s.lpspiAt u).rxCount (s.onUnit u s.mem (s.devAt u) (s.lpspiAt u) es) =
        .ok (s.onUnit u (s.keepFrames cr (s.rxIndex u cr) ((s.lpspiAt u).rxFifo.take m) s.mem) (((s.devAt u).received m).sent r)
          { s.lpspiAt u with
            rxFifo := (s.lpspiAt u).rxFifo.drop m
            txFifo := (s.lpspiAt u).txFifo ++ (List.range r).map fun i => .frame (ws i) }
          (es ++ ((s.lpspiAt u).rxFifo.take m).map (fun v => .regRead u (.rxdata v)) ++
            (List.range r).map fun i => .regWrite u (.txdata (ws i)))) := by
  obtain ⟨hslave, hcur, htx, hrx, hcr, hct, hm, hrxMore, hrxLen, hr, htxMore, htxLen, hready, hready', hsent⟩ := hmid
  have hlen : ((s.lpspiAt u).rxFifo.take m).length = m := List.length_take_of_le (by omega)
  have hspace : r ≤ s.params.fifoSize - (s.lpspiAt u).txCount := hr ▸ Nat.min_le_left _ _
  obtain ⟨ws, hws⟩ := txFrameValues_of_chanReady (i := s.txIndex u ct) (n := r) hready' (by rw [State.txIndex]; omega)
    (s.keepFrames cr (s.rxIndex u cr) ((s.lpspiAt u).rxFifo.take m) s.mem)
  have hdrain := repeatN_slaveDrain_store (m := s.mem) (es := es) halone (List.take_append_drop m (s.lpspiAt u).rxFifo).symm hlen hcur
    hrx hcr hready hrxMore hrxLen
  have hrefill := repeatN_txWriteFrame (d := (s.devAt u).received m) (p := { s.lpspiAt u with rxFifo := (s.lpspiAt u).rxFifo.drop m })
    (es := es ++ ((s.lpspiAt u).rxFifo.take m).map fun v => .regRead u (.rxdata v)) halone hcur ws hct htxMore htxLen hsent hspace hws
  rw [writes_txdata_of_room (p := { s.lpspiAt u with rxFifo := (s.lpspiAt u).rxFifo.drop m }) ws hspace] at hrefill
  exact ⟨ws, hws, (fifoDispatch_slave halone hslave hcur hm hdrain htx hr).trans hrefill⟩

end

/-! A poll of a DMA unit (R283) -/

/-- `s` after the `Done` flag of channel `ch` was read and, if it was set, the next pass of at most 511 of `n` frames loaded, `Dev[u]`
being `d`. -/
def State.flagPolled (s : State) (u ch n : Nat) (d : Dev) : State :=
  { s with
    dev := s.dev.set u d
    dma := if (s.dmaAt ch).done = true then dmaStore s.dma ch ((s.dmaAt ch).reloaded n) else s.dma
    trace := s.trace ++ .dmaPoll ch (s.dmaAt ch).done ::
      if (s.dmaAt ch).done = true then [.dmaAck ch, .dmaSetIter ch (chunk n), .dmaStart ch] else [] }

section
variable (s : State) (u ch n : Nat) (d : Dev)

theorem flagPolled_idle (hidle : (s.dmaAt ch).done = false) : s.flagPolled u ch n (s.devAt u) = s.emit (.dmaPoll ch false) := by
  simp [State.flagPolled, hidle, State.devAt, set_tget_self, State.emit]

theorem flagPolled_done (hdone : (s.dmaAt ch).done = true) : s.flagPolled u ch n d =
    ((s.emit (.dmaPoll ch true)).setDma ch ((s.dmaAt ch).reloaded n)).onUnit u s.mem d (s.lpspiAt u)
      [.dmaAck ch, .dmaSetIter ch (chunk n), .dmaStart ch] := by
  simp [State.flagPolled, hdone, State.onUnit, State.lpspiAt, set_tget_self, State.emit, State.setDma]

theorem flagPolled_sparesOthers : SparesOthers s (s.flagPolled u ch n d) u := ⟨rfl, rfl, rfl, fun _ hv => tget_tset_ne _ _ _ _ hv.symm⟩

theorem flagPolled_dmaAt_same :
    (s.flagPolled u ch n d).dmaAt ch = if (s.dmaAt ch).done = true then (s.dmaAt ch).reloaded n else s.dmaAt ch := by
  by_cases hdone : (s.dmaAt ch).done = true
  · rw [if_pos hdone, flagPolled_done s u ch n d hdone]; exact dmaAt_setDma_same ..
  · rw [if_neg hdone]; exact congrArg (dmaLookup · ch) (if_neg hdone)

theorem flagPolled_dmaAt_ne {c : Nat} (hne : c ≠ ch) : (s.flagPolled u ch n d).dmaAt c = s.dmaAt c := by
  by_cases hdone : (s.dmaAt ch).done = true
  · rw [flagPolled_done s u ch n d hdone]; exact dmaAt_setDma_ne _ _ _ _ hne.symm
  · exact congrArg (dmaLookup · c) (if_neg hdone)

end

theorem flagPolled_devAt {s : State} {u : Nat} (hdev : u < s.dev.length) (ch n : Nat) (d : Dev) :
    (s.flagPolled u ch n d).devAt u = d := tget_tset_same _ _ _ hdev

/-- `Dev[u]` after the transmit half of `IrqPoll(u)` with frames of job `j` left (42_engine_dma.md R258). -/
def State.devTxPolled (s : State) (u j : Nat) : Dev :=
  { s.devAt u with
    remainingData := if (s.dmaAt (s.cfg.unitAt u).dmaTxCh).done = true then
      (s.devAt u).remainingData - chunk (s.devAt u).remainingData else (s.devAt u).remainingData
    sentFrames := if (s.dmaAt (s.cfg.unitAt u).dmaTxCh).done = true then
      (s.chanAt (s.chanOf j (s.devAt u).txChanIdx)).length - (s.devAt u).remainingData else (s.devAt u).sentFrames }

/-- `Dev[u]` after the receive half with frames left (42_engine_dma.md R260). -/
def State.devRxPolled (s : State) (u : Nat) : Dev :=
  { s.devAt u with
    receivedData := if (s.dmaAt (s.cfg.unitAt u).dmaRxCh).done = true then
      (s.devAt u).receivedData - chunk (s.devAt u).receivedData else (s.devAt u).receivedData }

/-- `s` after the transmit half. -/
def State.txPolled (s : State) (u j : Nat) : State :=
  s.flagPolled u (s.cfg.unitAt u).dmaTxCh (s.devAt u).remainingData (s.devTxPolled u j)

/-- `s` after the receive half. -/
def State.rxPolled (s : State) (u : Nat) : State :=
  s.flagPolled u (s.cfg.unitAt u).dmaRxCh (s.devAt u).receivedData (s.devRxPolled u)

section
variable (s : State) (u j : Nat)

theorem txPolled_dmaAt_same : (s.txPolled u j).dmaAt (s.cfg.unitAt u).dmaTxCh =
    if (s.dmaAt (s.cfg.unitAt u).dmaTxCh).done = true then
      (s.dmaAt (s.cfg.unitAt u).dmaTxCh).reloaded (s.devAt u).remainingData else s.dmaAt (s.cfg.unitAt u).dmaTxCh :=
  flagPolled_dmaAt_same ..

theorem rxPolled_dmaAt_same : (s.rxPolled u).dmaAt (s.cfg.unitAt u).dmaRxCh =
    if (s.dmaAt (s.cfg.unitAt u).dmaRxCh).done = true then
      (s.dmaAt (s.cfg.unitAt u).dmaRxCh).reloaded (s.devAt u).receivedData else s.dmaAt (s.cfg.unitAt u).dmaRxCh :=
  flagPolled_dmaAt_same ..

theorem txPolled_dmaAt_ne {c : Nat} (hne : c ≠ (s.cfg.unitAt u).dmaTxCh) : (s.txPolled u j).dmaAt c = s.dmaAt c :=
  flagPolled_dmaAt_ne _ _ _ _ _ hne

theorem rxPolled_dmaAt_ne {c : Nat} (hne : c ≠ (s.cfg.unitAt u).dmaRxCh) : (s.rxPolled u).dmaAt c = s.dmaAt c :=
  flagPolled_dmaAt_ne _ _ _ _ _ hne

end

section
variable {s : State} {u j : Nat} (hdev : u < s.dev.length)
include hdev

theorem txPolled_devAt : (s.txPolled u j).devAt u = s.devTxPolled u j := flagPolled_devAt hdev ..

variable {n : Nat} {ctx : Ctx} (hcur : (s.devAt u).curJob = some j) (hopen : (s.devAt u).txDone = false)
include hcur hopen

theorem irqPollDmaRx_polled (hleft : (s.dmaAt (s.cfg.unitAt u).dmaRxCh).done = true → 0 < (s.devAt u).receivedData) :
    irqPollDmaRx (deliver n) ctx u s = .ok (s.rxPolled u) := by
  have hjob : (s.devAt u).curJob.isSome = true := by rw [hcur]; rfl
  rw [irqPollDmaRx, if_pos hjob, dmaPoll]
  cases hdone : (s.dmaAt (s.cfg.unitAt u).dmaRxCh).done with
  | false =>
    have hsame : s.devRxPolled u = s.devAt u := by rw [State.devRxPolled, hdone]; rfl
    rw [State.rxPolled, hsame, flagPolled_idle _ _ _ _ hdone]
  | true =>
    have hdispatch : dmaRxDispatch u (s.emit (.dmaPoll (s.cfg.unitAt u).dmaRxCh true)) = .ok (s.rxPolled u) := by
      rw [State.rxPolled, State.devRxPolled, flagPolled_done _ _ _ _ _ hdone, if_pos hdone]
      exact dmaRxDispatch_reload (s := s.emit _) hcur hdev rfl rfl (hleft hdone)
    simp only [isrDmaRx, hdispatch, res_ok_bind]
    exact finishIfDone_txOpen (by rw [State.rxPolled, flagPolled_devAt hdev]; exact hopen)

theorem irqPollDma_polled (hcalm : s.undisturbed = true)
    (hleft : (s.dmaAt (s.cfg.unitAt u).dmaTxCh).done = true → 0 < (s.devAt u).remainingData) :
    irqPollDma (deliver n) ctx u s = irqPollDmaRx (deliver n) ctx u (s.txPolled u j) := by
  rw [irqPollDma, dmaPoll]
  cases hdone : (s.dmaAt (s.cfg.unitAt u).dmaTxCh).done with
  | false =>
    have hsame : s.devTxPolled u j = s.devAt u := by rw [State.devTxPolled, hdone]; rfl
    rw [State.txPolled, hsame, flagPolled_idle _ _ _ _ hdone]
  | true =>
    have hdispatch : dmaTxDispatch u (s.emit (.dmaPoll (s.cfg.unitAt u).dmaTxCh true)) = .ok (s.txPolled u j) := by
      rw [State.txPolled, State.devTxPolled, flagPolled_done _ _ _ _ _ hdone, if_pos hdone, if_pos hdone]
      exact dmaTxDispatch_reload (s := s.emit _) hcur hdev rfl rfl (hleft hdone)
    have hfinish : finishIfDone (deliver n) ctx u (s.txPolled u j) = .ok (s.txPolled u j) :=
      finishIfDone_txOpen (by rw [txPolled_devAt hdev]; exact hopen)
    have hquiet : (s.txPolled u j).undisturbed = true := hcalm
    simp only [isrDmaTx, hdispatch, res_ok_bind, hfinish, deliver_undisturbed hquiet]

/-- The transmit flag first, then the receive flag (R283). -/
theorem irqPollDma_both (hcalm : s.undisturbed = true) (hne : (s.cfg.unitAt u).dmaRxCh ≠ (s.cfg.unitAt u).dmaTxCh)
    (hleftTx : (s.dmaAt (s.cfg.unitAt u).dmaTxCh).done = true → 0 < (s.devAt u).remainingData)
    (hleftRx : (s.dmaAt (s.cfg.unitAt u).dmaRxCh).done = true → 0 < (s.devAt u).receivedData) :
    irqPollDma (deliver n) ctx u s = .ok ((s.txPolled u j).rxPolled u) := by
  have hmid := txPolled_devAt (j := j) hdev
  have hlen : u < (s.txPolled u j).dev.length := by rw [State.txPolled, State.flagPolled, List.length_set]; exact hdev
  rw [irqPollDma_polled hdev hcur hopen hcalm hleftTx]
  exact irqPollDmaRx_polled hlen (by rw [hmid]; exact hcur) (by rw [hmid]; exact hopen)
    fun hdone => by rw [hmid]; exact hleftRx (txPolled_dmaAt_ne s u j hne ▸ hdone)

end

/-- A poll that finds a flag set is the dispatch, while the transmit side stays open. -/
theorem exec_poll_dispatched {s : State} {u : Nat} {m : Memory} {d : Dev} {p : Lpspi} {es : List Entry} (hcalm : s.undisturbed = true)
    (hpolls : s.pollsOnly u) (halone : Alone s u) (hdma : (s.cfg.unitAt u).dmaUsed = false)
    (hflag : (s.lpspiAt u).tdf = true ∨ (s.lpspiAt u).rdf = true)
    (hdispatch : fifoDispatch u (s.lpspiAt u).txCount (s.lpspiAt u).rxCount
      (s.onUnit u s.mem (s.devAt u) (s.lpspiAt u) (s.statusReads u)) = .ok (s.onUnit u m d p es))
    (hopen : d.txDone = false) :
    exec .mainFunctionHandling s = .next (s.onUnit u m d p (es ++ [.rsp 0])) := by
  have hpoll := irqPollFifo_flag (b := deliver s.inputs.length) (ctx := Ctx.foreground.enterPoll u) hcalm hflag
  rw [hdispatch, res_ok_bind, finishIfDone_txOpen (by rwa [devAt_onUnit halone])] at hpoll
  rw [exec_mainFunctionHandling_fifo hcalm hpolls (onUnit_sparesOthers ..) hdma hpoll, respond_onUnit]

/-- Settles O31: a pass is the `IrqPoll` of its one unit, and that is what the unit's kind and flags make it. -/
theorem mainFunctionPolls : Obligations.MainFunctionPolls := by
  unfold Obligations.MainFunctionPolls
  refine ⟨fun s => exec_mainFunctionHandling_none, fun s u hcalm hpolls hdma htdf hrdf => ?noFlag,
    fun s u hcalm hpolls hdma hmaster hflag hempty hopen => ?unanswered,
    fun s u j cr ct hcalm htables hmem hpolls hdma hflag => ?middle,
    fun s u j tx rx a b bt br hcalm htables hpolls hdma hcur htx hrx hbt hbr htxOpen _ ha hb hleftTx hleftRx => ?dma⟩
  case noFlag =>
    have hspares : SparesOthers s (s.emit (.regRead u (.stat false false (s.lpspiAt u).mbf))) u := ⟨rfl, rfl, rfl, fun _ _ => rfl⟩
    rw [exec_mainFunctionHandling_fifo hcalm hpolls hspares hdma (irqPollFifo_noFlag hcalm htdf hrdf)]
    simp [respond, State.emit, State.says]
  case unanswered =>
    have hcount : (s.lpspiAt u).rxCount = 0 := by rw [Lpspi.rxCount, hempty]; rfl
    have hreads := onUnit_sameUnit s u (s.statusReads u)
    have hpoll := irqPollFifo_flag (b := deliver s.inputs.length) (ctx := Ctx.foreground.enterPoll u) hcalm hflag
    rw [fifoDispatch_master hmaster, hcount, masterDispatch_empty, res_ok_bind, hreads, finishIfDone_sideOpen (by exact hopen)] at hpoll
    rw [exec_mainFunctionHandling_fifo hcalm hpolls (hreads ▸ onUnit_sparesOthers ..) hdma hpoll]
    simp [respond, State.emit, State.says, State.statusReads, hcount]
  case middle =>
    have ⟨_, hon, hu, _⟩ := hpolls
    have halone : Alone s u := .of_tablesOk htables hon hu hcalm
    refine ⟨fun v rest hmid hfifo => ?master, fun m r hmid => ?slave⟩
    case master =>
      obtain ⟨w, hw, hdispatch⟩ := fifoDispatch_midChannel (es := s.statusReads u) halone hmid hfifo
      obtain ⟨-, -, htx, -⟩ := hmid
      exact ⟨_, w, exec_poll_dispatched hcalm hpolls halone hdma hflag hdispatch htx, storesFrame_keepFrame hmem _ _ _, hw,
        by simp [State.onUnit, State.statusReads, Dev.sent, Dev.received]⟩
    case slave =>
      obtain ⟨ws, hws, hdispatch⟩ := fifoDispatch_midSlave (es := s.statusReads u) halone hmid
      obtain ⟨-, -, htx, -, -, -, hm, -⟩ := hmid
      have hlen : ((s.lpspiAt u).rxFifo.take m).length = m := List.length_take_of_le (by omega)
      refine ⟨_, ws, exec_poll_dispatched hcalm hpolls halone hdma hflag hdispatch htx, fun i p hi hdiscard hptr => ?stored,
        fun x hx => ?others, hws, ?moved⟩
      case stored =>
        refine (memRead_keepFrames hmem hdiscard hptr (by rwa [hlen])).trans ?_
        rw [List.getD_eq_getElem?_getD, List.getD_eq_getElem?_getD, List.getElem?_take_of_lt hi]
      case others => exact readByte_keepFrames_outside (by rwa [hlen])
      case moved => simp [State.onUnit, State.statusReads, Dev.sent, Dev.received]
  case dma =>
    have ⟨_, hon, hu, _⟩ := hpolls
    have hfit := fit_of_tablesOk htables hon
    have hdev := hfit.dev_lt hu
    have hne : rx ≠ tx := by rw [htx, hrx]; exact (hfit.dmaChannels_ne hu hdma).symm
    subst htx hrx hbt hbr ha hb
    have hmid := txPolled_devAt (j := j) hdev
    have hflag := txPolled_dmaAt_ne s u j hne
    have hcfg : (s.txPolled u j).cfg = s.cfg := rfl
    have hspares : SparesOthers s ((s.txPolled u j).rxPolled u) u :=
      (flagPolled_sparesOthers ..).trans (flagPolled_sparesOthers ..)
    refine ⟨_, exec_mainFunctionHandling_dma hcalm hpolls hspares hdma
      (irqPollDma_both hdev hcur htxOpen hcalm hne hleftTx hleftRx), ?state, ?tx, ?rx, fun ch hother => ?others⟩
    case state =>
      simp only [State.rxPolled, State.devRxPolled, hmid, hcfg, hflag, State.flagPolled]
      simp [respond, State.emit, State.txPolled, State.flagPolled, State.devTxPolled, chunk_eq]
    case tx => exact (rxPolled_dmaAt_ne (s.txPolled u j) u hne.symm).trans (txPolled_dmaAt_same s u j)
    case rx =>
      refine (rxPolled_dmaAt_same (s.txPolled u j) u).trans ?_
      rw [hcfg, hflag, hmid]
      rfl
    case others =>
      obtain ⟨htx, hrx⟩ := hother
      exact (rxPolled_dmaAt_ne (s.txPolled u j) u hrx).trans (txPolled_dmaAt_ne s u j htx)

end Sys2Proof.Machine

/-! SUPPORT and PROOFS of the synchronous-transmit family (44_sync_transmit.md): the masks and the cache that `INIT` computes, the two
paths of `SYNC_TRANSMIT`, the passes of a channel, and the command from its claim to its response. -/

namespace Sys2Proof.Machine

/-! The used-units mask of a sequence, bit by bit (R301) -/

theorem getLsbD_one_shiftLeft {n u : Nat} (hu : u < 32) : (1#32 <<< n).getLsbD u = true ↔ n = u := by
  simp only [BitVec.getLsbD_shiftLeft, BitVec.getLsbD_one]
  simp only [hu, decide_true, Bool.true_and, Bool.and_eq_true, Bool.not_eq_true', decide_eq_false_iff_not, decide_eq_true_eq,
    not_lt, Nat.sub_eq_zero_iff_le, Nat.zero_lt_succ]
  omega

theorem getLsbD_unitMask {cfg : Cfg} {js : List Nat} {u : Nat} (hu : u < 32) :
    (unitMask cfg js).getLsbD u = true ↔ ∃ j ∈ js, (cfg.jobAt j).hwUnit = u := by
  induction js with
  | nil => simp [unitMask]
  | cons j rest ih =>
    rw [unitMask, BitVec.getLsbD_or, Bool.or_eq_true, getLsbD_one_shiftLeft hu, ih, List.exists_mem_cons_iff]

/-- The bits of the first `n` of the 13 units. -/
theorem getLsbD_firstUnits {n u : Nat} (hn : n ≤ 13) : ((1#32 <<< n) - 1).getLsbD u = true ↔ u < n := by
  have hone := one_shiftLeft_toNat (u := n) (by omega)
  have hpos : 0 < 2 ^ n := Nat.two_pow_pos n
  have hsub : ((1#32 <<< n) - 1).toNat = 2 ^ n - 1 := by
    rw [BitVec.toNat_sub_of_le (by rw [BitVec.le_def, hone]; exact hpos), hone]; rfl
  rw [← BitVec.testBit_toNat, hsub, Nat.testBit_two_pow_sub_one, decide_eq_true_eq]

/-- A mask of units has no bit of a unit that does not exist (00_scope.md R19). -/
theorem getLsbD_of_maskOk {m : Word} {u : Nat} (h : maskOk m = true) (hu : 13 ≤ u) : m.getLsbD u = false := by
  rw [← BitVec.testBit_toNat]
  exact Nat.testBit_eq_false_of_lt ((maskOk_iff.1 h).trans_le (Nat.pow_le_pow_right (by decide) hu))

/-- Settles O16: an OR of one bit a job, or one less than a power of two; a unit's number is below 13. -/
theorem usedUnitsMask : Obligations.UsedUnitsMask := by
  unfold Obligations.UsedUnitsMask
  refine fun p cfg q => ⟨fun hmany u hu => ?concurrent, fun hone hn u _ => ?single,
    fun hwf hq u hu => getLsbD_of_maskOk (maskOk_usedUnitsOf hwf hq) hu⟩
  case concurrent => rw [usedUnitsOf, if_pos hmany, getLsbD_unitMask hu]
  case single => rw [usedUnitsOf, if_neg (by simp [hone]), getLsbD_firstUnits hn]

/-! The sequence cache (R302) -/

section
variable {p : Params} {cfg : Cfg}

/-- The turn of a sequence: its entry if it has one job and the pools have room, else none. -/
theorem fillCache_cons (x : SeqCfg) (rest : List SeqCfg) (k n used : Nat) :
    (∃ j, x.jobs = [j] ∧ n < cfg.seqPool ∧ used + (cfg.jobAt j).channels.length ≤ cfg.chanPool ∧
      fillCache p cfg (x :: rest) k n used =
        cacheEntry p cfg k j :: fillCache p cfg rest (k + 1) (n + 1) (used + (cfg.jobAt j).channels.length)) ∨
    ((∀ j, x.jobs = [j] → cfg.seqPool ≤ n ∨ cfg.chanPool < used + (cfg.jobAt j).channels.length) ∧
      fillCache p cfg (x :: rest) k n used = fillCache p cfg rest (k + 1) n used) := by
  rw [fillCache]
  split
  next j hjobs =>
    by_cases hroom : n < cfg.seqPool ∧ used + (cfg.jobAt j).channels.length ≤ cfg.chanPool
    · exact .inl ⟨j, hjobs, hroom.1, hroom.2, if_pos hroom⟩
    · refine .inr ⟨fun i hi => ?_, if_neg hroom⟩
      obtain rfl : j = i := by simpa [hjobs] using hi
      omega
  next hjobs => exact .inr ⟨fun j hj => absurd hj (hjobs j), rfl⟩

@[simp] theorem cacheEntry_seq (q j : Nat) : (cacheEntry p cfg q j).seq = q := rfl

@[simp] theorem cacheEntry_chans_length (q j : Nat) :
    (cacheEntry p cfg q j).chans.length = (cfg.jobAt j).channels.length := List.length_map _

theorem fillCache_seq_ge {l : List SeqCfg} {k n used : Nat} {e : CacheEntry} (h : e ∈ fillCache p cfg l k n used) : k ≤ e.seq := by
  obtain ⟨i, x, j, -, -, rfl⟩ := mem_fillCache h
  exact Nat.le_add_right k i

theorem fillCache_ascending (l : List SeqCfg) (k n used : Nat) :
    ((fillCache p cfg l k n used).map CacheEntry.seq).Pairwise (· < ·) := by
  induction l generalizing k n used with
  | nil => exact List.Pairwise.nil
  | cons x rest ih =>
    obtain ⟨j, -, -, -, heq⟩ | ⟨-, heq⟩ := fillCache_cons (p := p) (cfg := cfg) x rest k n used
    · rw [heq, List.map_cons, List.pairwise_cons]
      refine ⟨fun q hq => ?_, ih _ _ _⟩
      obtain ⟨e, he, rfl⟩ := List.mem_map.1 hq
      exact fillCache_seq_ge he
    · rw [heq]; exact ih _ _ _

theorem fillCache_length_le (l : List SeqCfg) (k : Nat) {n : Nat} (used : Nat) (hn : n ≤ cfg.seqPool) :
    n + (fillCache p cfg l k n used).length ≤ cfg.seqPool := by
  induction l generalizing k n used with
  | nil => exact hn
  | cons x rest ih =>
    obtain ⟨j, -, hroom, -, heq⟩ | ⟨-, heq⟩ := fillCache_cons (p := p) (cfg := cfg) x rest k n used
    · have hrest := ih (k + 1) (n := n + 1) (used + (cfg.jobAt j).channels.length) hroom
      rw [heq, List.length_cons]
      omega
    · rw [heq]; exact ih _ _ hn

theorem fillCache_chans_le (l : List SeqCfg) (k n : Nat) {used : Nat} (hused : used ≤ cfg.chanPool) :
    used + ((fillCache p cfg l k n used).map fun e => e.chans.length).sum ≤ cfg.chanPool := by
  induction l generalizing k n used with
  | nil => exact hused
  | cons x rest ih =>
    obtain ⟨j, -, -, hroom, heq⟩ | ⟨-, heq⟩ := fillCache_cons (p := p) (cfg := cfg) x rest k n used
    · have hrest := ih (k + 1) (n + 1) hroom
      rw [heq, List.map_cons, List.sum_cons, cacheEntry_chans_length]
      omega
    · rw [heq]; exact ih _ _ hused

/-- What the entries before sequence `q` take of the two pools. -/
def entriesBefore (l : List CacheEntry) (q : Nat) : List CacheEntry := l.filter fun e => decide (e.seq < q)

theorem entriesBefore_cons {e : CacheEntry} {q : Nat} (h : e.seq < q) (l : List CacheEntry) :
    entriesBefore (e :: l) q = e :: entriesBefore l q := List.filter_cons_of_pos (decide_eq_true h)

/-- A one-job sequence that has no entry did not fit when its turn came: the pools held what the earlier entries left. -/
theorem fillCache_leftOut {l : List SeqCfg} {k n used i j : Nat} {x : SeqCfg} (hx : l[i]? = some x) (hjobs : x.jobs = [j])
    (hout : ∀ e ∈ fillCache p cfg l k n used, e.seq ≠ k + i) :
    cfg.seqPool ≤ n + (entriesBefore (fillCache p cfg l k n used) (k + i)).length ∨
    cfg.chanPool < used + ((entriesBefore (fillCache p cfg l k n used) (k + i)).map fun e => e.chans.length).sum +
      (cfg.jobAt j).channels.length := by
  induction l generalizing k n used i with
  | nil => cases hx
  | cons y rest ih =>
    obtain ⟨j', -, -, -, heq⟩ | ⟨hfull, heq⟩ := fillCache_cons (p := p) (cfg := cfg) y rest k n used <;> rw [heq] at hout ⊢
    · cases i with
      | zero => exact absurd rfl (hout _ List.mem_cons_self)
      | succ i =>
        have hrest := ih (k := k + 1) (i := i) hx fun e he => by
          rw [Nat.add_assoc, Nat.add_comm 1]; exact hout e (List.mem_cons_of_mem _ he)
        rw [Nat.add_assoc k, Nat.add_comm 1 i] at hrest
        rw [entriesBefore_cons (by simp), List.length_cons, List.map_cons, List.sum_cons, cacheEntry_chans_length]
        omega
    · cases i with
      | zero =>
        obtain rfl : y = x := Option.some.inj hx
        have := hfull j hjobs
        omega
      | succ i =>
        have hrest := ih (k := k + 1) (i := i) hx fun e he => by
          rw [Nat.add_assoc, Nat.add_comm 1]; exact hout e he
        rwa [Nat.add_assoc k, Nat.add_comm 1 i] at hrest

theorem seqCacheOf_of_pools (hseq : cfg.seqPool ≠ 0) (hchan : cfg.chanPool ≠ 0) :
    seqCacheOf p cfg = fillCache p cfg cfg.seqs 0 0 0 := if_pos ⟨hseq, hchan⟩

theorem seqCacheOf_of_noPool (h : cfg.seqPool = 0 ∨ cfg.chanPool = 0) : seqCacheOf p cfg = [] := if_neg (by omega)

end

theorem seqs_getElem? {cfg : Cfg} {q : Nat} (hq : q < cfg.numSeqs) : cfg.seqs[q]? = some (cfg.seqAt q) := by
  rw [Cfg.seqAt, tget_eq_getElem _ _ hq]; exact List.getElem?_eq_getElem hq

/-- Settles O17: the loop that fills the cache, by induction on the sequences that are left. -/
theorem sequenceCacheFilled : Obligations.SequenceCacheFilled := by
  unfold Obligations.SequenceCacheFilled
  intro p cfg
  refine ⟨seqCacheOf_of_noPool, ?_⟩
  by_cases hpools : cfg.seqPool = 0 ∨ cfg.chanPool = 0
  · rw [seqCacheOf_of_noPool hpools]
    simp only [List.not_mem_nil, List.map_nil, List.length_nil, List.sum_nil]
    exact ⟨nofun, .nil, Nat.zero_le _, Nat.zero_le _, fun hseq hchan => absurd hpools (not_or.2 ⟨hseq, hchan⟩)⟩
  · obtain ⟨hseq, hchan⟩ := not_or.1 hpools
    rw [seqCacheOf_of_pools hseq hchan]
    refine ⟨fun e he => ?entry, fillCache_ascending _ _ _ _, ?entries, ?channels, fun _ _ q j hq hjobs hout => ?leftOut⟩
    case entry =>
      obtain ⟨i, x, j, hx, hjobs, rfl⟩ := mem_fillCache he
      obtain ⟨hi, -⟩ := List.getElem?_eq_some_iff.1 hx
      rw [Nat.zero_add, cacheEntry_seq]
      rw [seqs_getElem? hi] at hx
      exact ⟨hi, j, Option.some.inj hx ▸ hjobs, rfl⟩
    case entries => simpa using fillCache_length_le (p := p) cfg.seqs 0 0 (Nat.zero_le cfg.seqPool)
    case channels => simpa using fillCache_chans_le (p := p) cfg.seqs 0 0 (Nat.zero_le cfg.chanPool)
    case leftOut =>
      have hturn := fillCache_leftOut (p := p) (k := 0) (n := 0) (used := 0) (seqs_getElem? hq) hjobs (by rwa [Nat.zero_add])
      simpa only [Nat.zero_add, entriesBefore] using hturn

end Sys2Proof.Machine

/-! The time-out of a pass, and the jobs after a failed one (44_sync_transmit.md R305, R306, R309). -/

namespace Sys2Proof.Machine

theorem settle_frame (items : List TxItem) (p : Lpspi) :
    ∃ c h l, p.settle items = { p with shiftCmd := c, csHeld := h, txFifo := l } := by
  unfold Lpspi.settle
  split
  · exact ⟨p.shiftCmd, p.csHeld, items, rfl⟩
  · obtain ⟨c, h, l, heq, -⟩ := settleFrom_frame items p
    exact ⟨c, h, l, heq⟩

/-- A time-out dirties the FIFOs, the shifter and the chip select (93_implementation_defined.md U8), no register. -/
theorem soil_frame (fifoSize : Nat) (r : Residue) (p : Lpspi) : ∃ tx rx x h c, p.soil fifoSize r =
    { p with txFifo := tx, rxFifo := rx, shifting := x, csHeld := h, shiftCmd := c } := by
  obtain ⟨c, h, l, heq⟩ := settle_frame (takeFrames fifoSize r.txItems)
    { p with shifting := r.shifting, rxFifo := r.rxFrames.take fifoSize, csHeld := r.csHeld }
  exact ⟨l, _, _, h, c, heq⟩

/-- Writing back what a written table reads changes nothing more. -/
theorem set_tget_set {α : Type} [Inhabited α] (l : List α) (i : Nat) (v : α) : l.set i (tget (l.set i v) i) = l.set i v := by
  have hself := set_tget_self (l.set i v) i
  rwa [List.set_set] at hself

section
variable {b : Boundary} {ctx : Ctx} {u c : Nat} {w : Width} {last : Bool} {s s' : State}

/-- A pass that finds the counter 0 with frames left (R306). -/
theorem syncPasses_timeout (hleft : syncLeft u s = true) (hb : b ctx s = .ok s') :
    syncPasses b ctx u c w last 0 s = .ok (none, syncAbort u s') := by
  rw [syncPasses, if_pos hleft, hb]

theorem syncAbort_eq (u : Nat) (s : State) : syncAbort u s = { s with
    dev := s.dev.set u { s.devAt u with curJob := none, contCSActive := false }
    lpspi := s.lpspi.set u ((syncAbort u s).lpspiAt u), freeCount := s.freeCount + 1 } := by
  have hlpspi : (syncAbort u s).lpspi = s.lpspi.set u ((syncAbort u s).lpspiAt u) := (set_tget_set s.lpspi u _).symm
  rw [← hlpspi]
  rfl

theorem syncAbort_lpspiAt (hu : u < s.lpspi.length) :
    (syncAbort u s).lpspiAt u = (s.lpspiAt u).soil s.params.fifoSize (Config.timeoutResidue s.freeCount) :=
  tget_tset_same s.lpspi u _ hu

end

theorem syncResult_eq (j : Nat) (r : JobResult) (s : State) : syncResult j r s = { s with
    job := s.job.set j { s.jobAt j with result := r }, trace := s.trace ++ notice (s.cfg.jobAt j).endNotif .jobEnd j } :=
  notify_eq _ _ _ _

theorem syncResult_job (j : Nat) (r : JobResult) (s : State) : (syncResult j r s).job = (s.setJobResult j r).job := by
  rw [syncResult, notify_job]

theorem syncResult_jobAt_same {j : Nat} {s : State} (hj : j < s.job.length) (r : JobResult) :
    (syncResult j r s).jobAt j = { s.jobAt j with result := r } := by
  rw [State.jobAt, syncResult_job]; exact jobAt_setJob_same s j _ hj

theorem syncResult_jobAt_ne {i j : Nat} (hne : i ≠ j) (r : JobResult) (s : State) : (syncResult j r s).jobAt i = s.jobAt i := by
  rw [State.jobAt, syncResult_job]; exact jobAt_setJob_ne s j i _ hne.symm

/-- The jobs after a failed one are not attempted (R305, 60_exceptions.md R406). -/
theorem syncJobs_poisoned {n : Nat} {ctx : Ctx} (jobs : List Nat) {s : State} (hcalm : s.undisturbed = true) :
    ∃ t, syncJobs (deliver n) ctx jobs none s = .ok (none, t) ∧
      t = { s with job := t.job, trace := s.trace ++ jobs.flatMap fun j => notice (s.cfg.jobAt j).endNotif .jobEnd j } ∧
      t.job.length = s.job.length ∧
      (∀ j ∈ jobs, j < s.job.length → t.jobAt j = { s.jobAt j with result := .failed }) ∧
      (∀ j, j ∉ jobs → t.jobAt j = s.jobAt j) := by
  induction jobs generalizing s with
  | nil => exact ⟨s, rfl, by simp, rfl, nofun, fun _ _ => rfl⟩
  | cons j rest ih =>
    have hfirst := syncResult_eq j .failed s
    have hlen : (syncResult j .failed s).job.length = s.job.length := by rw [hfirst]; exact List.length_set
    obtain ⟨t, hrest, hframe, hlength, hfailed, hothers⟩ := ih (s := syncResult j .failed s) (by rw [hfirst]; exact hcalm)
    refine ⟨t, by rw [syncJobs, deliver_undisturbed hcalm, res_ok_bind, hrest], ?frame, hlength.trans hlen, fun i hi hlt => ?failed,
      fun i hi => ?others⟩
    case frame =>
      rw [hframe, hfirst, List.flatMap_cons, List.append_assoc]
    case failed =>
      by_cases hrep : i ∈ rest
      · rw [hfailed i hrep (hlen.symm ▸ hlt)]
        by_cases hij : i = j
        · rw [hij, syncResult_jobAt_same (hij ▸ hlt)]
        · rw [syncResult_jobAt_ne hij]
      · obtain rfl := (List.mem_cons.1 hi).resolve_right hrep
        rw [hothers i hrep, syncResult_jobAt_same hlt]
    case others =>
      obtain ⟨hij, hrest⟩ := not_or.1 (mt List.mem_cons.2 hi)
      rw [hothers i hrest, syncResult_jobAt_ne hij]

/-- Settles O36: the abort writes `Dev[u]` and dirties the peripheral; a failed job's successors only get their result. -/
theorem timedOutSequenceIsPoisoned : Obligations.TimedOutSequenceIsPoisoned := by
  unfold Obligations.TimedOutSequenceIsPoisoned
  refine ⟨fun b ctx u c w last s s' hleft hb => ⟨_, syncPasses_timeout hleft hb, syncAbort_eq u s', fun hu => ?registers⟩,
    fun n ctx jobs s hcalm => ?later⟩
  case registers =>
    obtain ⟨tx, rx, x, h, c, hsoil⟩ := soil_frame s'.params.fifoSize (Config.timeoutResidue s'.freeCount) (s'.lpspiAt u)
    rw [syncAbort_lpspiAt hu, hsoil]
  case later =>
    obtain ⟨t, hrun, hframe, -, hfailed, hothers⟩ := syncJobs_poisoned (n := n) (ctx := ctx) jobs hcalm
    exact ⟨t, hrun, hframe, hfailed, hothers⟩

end Sys2Proof.Machine

/-! The fast path of `SYNC_TRANSMIT` is the general one (44_sync_transmit.md R304, R310, R311): the cache entry holds what the general path
looks up, and each channel starts the same way. -/

namespace Sys2Proof.Machine

theorem res_bind_congr {α β : Type} {x : Res α} {f g : α → Res β} (h : ∀ a, x = .ok a → f a = g a) : (x >>= f) = (x >>= g) := by
  cases x with
  | error e => rfl
  | ok a => exact h a rfl

/-! What stays while a job runs on a unit -/

/-- `K` lasts while the block works for unit `u`: the moves before a register access keep it, and so does every update of the block's own
but one of `CurJob`. -/
structure Lasting (u : Nat) (K : State → Prop) : Prop where
  point : ∀ s t, agentPoint s = .ok t → K s → K t
  block : ∀ s t, SameBlock s t → t.inputs = s.inputs → K s → K t
  dev : ∀ s d, d.curJob = s.curOf u → K s → K (s.setDev u d)

namespace Lasting

variable {u : Nat} {K : State → Prop} (hK : Lasting u K) {s t : State}
include hK

theorem regWrite {w : RegWrite} (h : regWrite u w s = .ok t) (hs : K s) : K t := by
  obtain ⟨m, hm, rfl⟩ := regWrite_cases h
  exact hK.block _ _ ((pokeReg_sameBlock _ _ _).trans (emit_sameBlock _ _)) rfl (hK.point _ _ hm hs)

theorem readFifoStat {r : Nat × Nat} (h : readFifoStat u s = .ok (r, t)) (hs : K s) : K t := by
  obtain ⟨m, hm, -, -, rfl⟩ := readFifoStat_cases (tc := r.1) (rc := r.2) h
  exact hK.block _ _ (emit_sameBlock _ _) rfl (hK.point _ _ hm hs)

theorem readRxData {v : Word} (h : readRxData u s = .ok (v, t)) (hs : K s) : K t := by
  obtain ⟨m, hm, -, rfl⟩ := readRxData_cases h
  exact hK.block _ _ ((popRx_sameBlock _ _).trans (emit_sameBlock _ _)) (popRx_inputs m u) (hK.point _ _ hm hs)

theorem rxStoreFrame {c i : Nat} {w : Width} {v : Word} (h : rxStoreFrame s c w i v = .ok t) (hs : K s) : K t := by
  refine hK.block _ _ (rxStoreFrame_sameBlock h) ?_ hs
  obtain rfl | ⟨_, _, _, _, _, _, rfl⟩ := rxStoreFrame_cases h <;> rfl

theorem writeCmd {c : CmdWord} (h : writeCmd u c s = .ok t) (hs : K s) : K t := by
  obtain ⟨m, hm, h⟩ := res_bind_eq_ok.1 h
  cases h; exact hK.dev _ _ rfl (hK.regWrite hm hs)

theorem programChannel {first : Bool} {a b : Nat} {f : Bool → CmdWord} {cs : Bool} (h : programChannel u first a b f cs s = .ok t)
    (hs : K s) : K t := by
  unfold Machine.programChannel at h
  split at h
  · obtain ⟨m, hm, h⟩ := res_bind_eq_ok.1 h
    obtain ⟨m2, hm2, h⟩ := res_bind_eq_ok.1 h
    cases h; exact hK.dev _ _ rfl (hK.writeCmd hm2 (hK.regWrite hm hs))
  · simp only at h
    split at h
    · cases h; exact hs
    · exact hK.writeCmd h hs

theorem txChannelInit {first : Bool} (h : txChannelInit u first s = .ok t) (hs : K s) : K t := by
  obtain ⟨j, -, h⟩ := res_bind_eq_ok.1 h
  simp only at h
  split at h
  · cases h
  · exact hK.programChannel h (hK.dev _ _ rfl hs)

theorem rxChannelInit (h : rxChannelInit u s = .ok t) (hs : K s) : K t := by
  obtain ⟨j, -, h⟩ := res_bind_eq_ok.1 h
  unfold loadRxCounter at h
  split at h <;> cases h
  exact hK.dev _ _ rfl hs

theorem clearContCS (h : clearContCS u s = .ok t) (hs : K s) : K t := by
  unfold Machine.clearContCS at h
  split at h
  · obtain ⟨m, hm, h⟩ := res_bind_eq_ok.1 h
    cases h; exact hK.dev _ _ rfl (hK.writeCmd hm hs)
  · cases h; exact hs

theorem sendFrame {c : Nat} {w : Width} (h : sendFrame u c w s = .ok t) (hs : K s) : K t := by
  obtain ⟨left, -, h⟩ := res_bind_eq_ok.1 h
  obtain ⟨sent, -, h⟩ := res_bind_eq_ok.1 h
  obtain ⟨v, -, h⟩ := res_bind_eq_ok.1 h
  obtain ⟨m, hm, h⟩ := res_bind_eq_ok.1 h
  cases h; exact hK.dev _ _ rfl (hK.regWrite hm hs)

theorem receiveFrame {c : Nat} {w : Width} (h : receiveFrame u c w s = .ok t) (hs : K s) : K t := by
  obtain ⟨left, -, h⟩ := res_bind_eq_ok.1 h
  obtain ⟨⟨v, m⟩, hm, h⟩ := res_bind_eq_ok.1 h
  obtain ⟨m2, hm2, h⟩ := res_bind_eq_ok.1 h
  cases h; exact hK.dev _ _ rfl (hK.rxStoreFrame hm2 (hK.readRxData hm hs))

theorem syncSend {c tc : Nat} {w : Width} {last : Bool} (h : syncSend u c w last tc s = .ok t) (hs : K s) : K t := by
  unfold Machine.syncSend at h
  split at h
  · obtain ⟨m, hm, h⟩ := res_bind_eq_ok.1 h
    split at h
    · exact hK.clearContCS h (hK.sendFrame hm hs)
    · cases h; exact hK.sendFrame hm hs
  · cases h; exact hs

theorem syncPass {c : Nat} {w : Width} {last : Bool} (h : syncPass u c w last s = .ok t) (hs : K s) : K t := by
  obtain ⟨⟨r, m⟩, hm, h⟩ := res_bind_eq_ok.1 h
  obtain ⟨m2, hm2, h⟩ := res_bind_eq_ok.1 h
  have hsent := hK.syncSend hm2 (hK.readFifoStat hm hs)
  unfold syncReceive at h
  split at h
  · exact hK.receiveFrame h hsent
  · cases h; exact hsent

theorem setChanIdx {k : Nat} (h : setChanIdx u k s = .ok t) (hs : K s) : K t := by
  obtain ⟨-, rfl⟩ := setChanIdx_cases h
  exact hK.dev _ _ rfl hs

/-- The passes of a channel that is not timed out. -/
theorem syncPasses {b : Boundary} (hb : KeepsAt K b) {ctx : Ctx} {c n left : Nat} {w : Width} {last : Bool}
    (h : syncPasses b ctx u c w last n s = .ok (some left, t)) (hs : K s) : K t := by
  induction n generalizing s with
  | zero =>
    unfold Machine.syncPasses at h
    split at h
    · split at h <;> cases h
    · cases h; exact hs
  | succ n ih =>
    unfold Machine.syncPasses at h
    split at h
    · split at h
      · cases h
      · rename_i hm
        split at h
        · cases h
        · rename_i hpass
          exact ih h (hK.syncPass hpass (hb _ _ _ hm hs))
    · cases h; exact hs

end Lasting

/-- `P` is about what waits in the inputs: the moves before a register access keep it, and so does whatever leaves the inputs and the
parameters alone. -/
structure AboutInputs (P : State → Prop) : Prop where
  point : ∀ s t, agentPoint s = .ok t → P s → P t
  same : ∀ s t : State, t.params = s.params → t.inputs = s.inputs → P s → P t

theorem aboutInputs_true : AboutInputs fun _ => True := ⟨fun _ _ _ _ => trivial, fun _ _ _ _ _ => trivial⟩

theorem aboutInputs_noProcedureWaits : AboutInputs fun s => s.noProcedureWaits = true where
  point _ _ h hs := ((Calm.refl hs).agentMoves h).waits
  same _ _ hparams hinputs hs := (noProcedureWaits_congr hparams hinputs).trans hs

theorem aboutInputs_undisturbed : AboutInputs fun s => s.undisturbed = true where
  point s t h hs := by rw [agentPoint_undisturbed hs] at h; cases h; exact hs
  same _ _ _ hinputs hs := undisturbed_of_inputs hs hinputs

/-- The configuration is `c`, unit `u` has a record and `cur` is its job in flight, and `P` holds. -/
structure OnJob (P : State → Prop) (c : Cfg) (u : Nat) (cur : Option Nat) (s : State) : Prop where
  prop : P s
  cfg : s.cfg = c
  dev : u < s.dev.length
  cur : s.curOf u = cur

section
variable {P : State → Prop} (hP : AboutInputs P) {c : Cfg} {u : Nat} {cur : Option Nat} {s t : State}
include hP

theorem OnJob.lasting : Lasting u (OnJob P c u cur) where
  point s t h hs := by
    have hsame := agentPoint_sameBlock h
    refine ⟨hP.point _ _ h hs.prop, hsame.cfg.trans hs.cfg, hsame.dev ▸ hs.dev, ?_⟩
    rw [State.curOf, State.devAt, hsame.dev]; exact hs.cur
  block s t hsame hinputs hs := by
    refine ⟨hP.same _ _ hsame.params hinputs hs.prop, hsame.cfg.trans hs.cfg, hsame.dev ▸ hs.dev, ?_⟩
    rw [State.curOf, State.devAt, hsame.dev]; exact hs.cur
  dev s d hd hs := by
    refine ⟨hP.same s _ rfl rfl hs.prop, hs.cfg, (tset_length s.dev u d).symm ▸ hs.dev, ?_⟩
    rw [State.curOf, devAt_setDev_same _ _ _ hs.dev]; exact hd.trans hs.cur

/-- The job in flight changes at the start and at the end of a job. -/
theorem OnJob.setDev (hs : OnJob P c u cur s) {cur' : Option Nat} {d : Dev} (hd : d.curJob = cur') :
    OnJob P c u cur' (s.setDev u d) :=
  ⟨hP.same s _ rfl rfl hs.prop, hs.cfg, (tset_length s.dev u d).symm ▸ hs.dev, by
    rw [State.curOf, devAt_setDev_same _ _ _ hs.dev, hd]⟩

theorem OnJob.enterSyncJob (hs : OnJob P c u cur s) (j : Nat) : OnJob P c u (some j) (enterSyncJob u j s) :=
  hs.setDev hP (by rfl)

theorem OnJob.notifyResult (hs : OnJob P c u cur s) (j : Nat) (r : JobResult) (on : Bool) (k : NotifKind) :
    OnJob P c u cur (notify on k j (s.setJobResult j r)) := by
  rw [notify_eq]
  exact ⟨hP.same s _ rfl rfl hs.prop, hs.cfg, hs.dev, hs.cur⟩

end

/-! A channel starts the same way on both paths (41_engine_fifo.md R214, R216) -/

/-- What a cache entry records of channel `c` of job `j` (10_state.md R67). -/
def cacheChan (cfg : Cfg) (j c : Nat) : CacheChan :=
  { cmd := chanCmd cfg j c false, wmTx := (cfg.channelAt c).wmTx, wmRx := (cfg.channelAt c).wmRx
    width := (cfg.channelAt c).width, chan := c }

theorem cacheEntry_chans (p : Params) (cfg : Cfg) (q j : Nat) :
    (cacheEntry p cfg q j).chans = (cfg.jobAt j).channels.map (cacheChan cfg j) := rfl

theorem writeCmd_dev {u : Nat} {cmd : CmdWord} {s t : State} (h : writeCmd u cmd s = .ok t) :
    t.dev = tset s.dev u { s.devAt u with cmdWord := cmd } := by
  obtain ⟨m, hm, h⟩ := res_bind_eq_ok.1 h
  cases h
  simp only [setDev_dev, State.devAt, (regWrite_sameBlock hm).dev]

/-- Programming a channel writes the command word and the continuous bit of `Dev[u]`, no more. -/
theorem programChannel_devAt {u : Nat} {first : Bool} {a b : Nat} {f : Bool → CmdWord} {cs : Bool} {s t : State} (hu : u < s.dev.length)
    (h : programChannel u first a b f cs s = .ok t) : ∃ cmd cont, t.devAt u = { s.devAt u with cmdWord := cmd, contCSActive := cont } := by
  unfold programChannel at h
  split at h
  · obtain ⟨m, hm, h⟩ := res_bind_eq_ok.1 h
    obtain ⟨m2, hm2, h⟩ := res_bind_eq_ok.1 h
    cases h
    have hdev := (regWrite_sameBlock hm).dev
    have hdev2 := writeCmd_dev hm2
    rw [State.devAt, hdev] at hdev2
    have hu2 : u < m2.dev.length := by rw [hdev2, tset_length]; exact hu
    have hat : m2.devAt u = { s.devAt u with cmdWord := f cs } := by rw [State.devAt, hdev2]; exact tget_tset_same _ _ _ hu
    exact ⟨f cs, cs, by rw [devAt_setDev_same _ _ _ hu2, hat]⟩
  · simp only at h
    split at h
    · cases h; exact ⟨_, _, rfl⟩
    · exact ⟨_, _, by rw [State.devAt, writeCmd_dev h]; exact tget_tset_same _ _ _ hu⟩

theorem currentJob_of_curOf {s : State} {u j : Nat} (h : s.curOf u = some j) : currentJob u s = .ok j := by
  have hcur : (s.devAt u).curJob = some j := h
  rw [currentJob, hcur]

theorem rxChannelInit_of_curOf {s : State} {u j c : Nat} (hcur : s.curOf u = some j) (hc : s.chanOf j (s.devAt u).rxChanIdx = c) :
    rxChannelInit u s = loadRxCounter u c s := by
  rw [rxChannelInit, currentJob_of_curOf hcur, res_ok_bind, hc]

/-- The cached channel init is the general one, both ways. -/
theorem fastChannelInit_eq {p : Params} {s : State} {q j c k : Nat} {first : Bool} (hdev : s.unitOf j < s.dev.length)
    (hcur : s.curOf (s.unitOf j) = some j) (htx : (s.devAt (s.unitOf j)).txChanIdx = k) (hrx : (s.devAt (s.unitOf j)).rxChanIdx = k)
    (hc : s.chanOf j k = c) :
    fastChannelInit (cacheEntry p s.cfg q j) (cacheChan s.cfg j c) first s =
      (txChannelInit (s.unitOf j) first s >>= rxChannelInit (s.unitOf j)) := by
  have hload : (loadTxCounters (s.unitOf j) c s).devAt (s.unitOf j) =
      { s.devAt (s.unitOf j) with txRemaining := (s.chanAt c).length, sentFrames := 0 } := devAt_setDev_same _ _ _ hdev
  have hchan : (cacheChan s.cfg j c).chan = c := rfl
  rw [fastChannelInit, txChannelInit, currentJob_of_curOf hcur, res_ok_bind, htx, hc, hchan]
  by_cases hzero : (s.chanAt c).length = 0
  · rw [if_pos hzero, if_pos hzero]; rfl
  · rw [if_neg hzero, if_neg hzero]
    show (programJobChannel (s.unitOf j) first j c (loadTxCounters (s.unitOf j) c s) >>= loadRxCounter (s.unitOf j) c) = _
    refine res_bind_congr fun m hm => ?_
    have hm' : OnJob (fun _ => True) s.cfg (s.unitOf j) (some j) m :=
      (OnJob.lasting aboutInputs_true).programChannel hm ⟨trivial, rfl, by rwa [loadTxCounters, setDev_dev, tset_length], by
        rw [State.curOf, hload]; exact hcur⟩
    obtain ⟨cmd, cont, hat⟩ := programChannel_devAt (by rwa [loadTxCounters, setDev_dev, tset_length]) hm
    have hidx : (m.devAt (s.unitOf j)).rxChanIdx = k := by rw [hat, hload]; exact hrx
    rw [rxChannelInit_of_curOf (c := c) hm'.cur (by rw [hidx, State.chanOf, hm'.cfg]; exact hc)]

/-! The two paths -/

section
variable {P : State → Prop} (hP : AboutInputs P) {b : Boundary} {cfg : Cfg} {u : Nat}
  (hb : ∀ cur, KeepsAt (OnJob P cfg u cur) b) {ctx : Ctx} {p : Params} {q j : Nat} (hu : u = (cfg.jobAt j).hwUnit)
include hP hb hu

theorem fastChannels_eq {l : List Nat} {k n : Nat} {s : State} (hl : (cfg.jobAt j).channels.drop k = l)
    (hs : OnJob P cfg u (some j) s) :
    fastChannels b ctx (cacheEntry p cfg q j) (l.map (cacheChan cfg j)) k n s = syncChannels b ctx u l k n s := by
  have hunit : (cacheEntry p cfg q j).unit = u := hu.symm
  have hlast := OnJob.lasting (c := cfg) (u := u) (cur := some j) hP
  induction l generalizing s k n with
  | nil => rfl
  | cons c rest ih =>
    have hget : (cfg.jobAt j).channels[k]? = some c := by rw [← List.head?_drop, hl]; rfl
    have hrest : (cfg.jobAt j).channels.drop (k + 1) = rest := by rw [← List.drop_drop, hl]; rfl
    rw [List.map_cons, fastChannels, syncChannels, hunit]
    refine res_bind_congr fun m hm => ?_
    have hm' := hlast.setChanIdx hm hs
    obtain ⟨-, rfl⟩ := setChanIdx_cases hm
    have hinit := fastChannelInit_eq (p := p) (q := q) (s := s.setDev u { s.devAt u with txChanIdx := k, rxChanIdx := k }) (j := j) (c := c)
      (k := k) (first := decide (k = 0))
    have hunit' : (s.setDev u { s.devAt u with txChanIdx := k, rxChanIdx := k }).unitOf j = u := by
      rw [State.unitOf, hm'.cfg, hu]
    rw [hunit', hm'.cfg] at hinit
    rw [hinit hm'.dev hm'.cur (by rw [devAt_setDev_same _ _ _ hs.dev]) (by rw [devAt_setDev_same _ _ _ hs.dev])
      (by rw [State.chanOf, hm'.cfg, tget, List.getD_eq_getElem?_getD, hget]; rfl), bind_assoc]
    refine res_bind_congr fun m1 hm1 => res_bind_congr fun m2 hm2 => ?_
    have hm2' := hlast.rxChannelInit hm2 (hlast.txChannelInit hm1 hm')
    have hwidth : (cacheChan cfg j c).width = (m2.cfg.channelAt c).width := by rw [hm2'.cfg]; rfl
    rw [hwidth, List.isEmpty_map]
    refine res_bind_congr fun r hr => ?_
    obtain ⟨left, m3⟩ := r
    cases left with
    | none => rfl
    | some left => exact ih hrest (hlast.syncPasses (hb _) hr hm2')

theorem fastJobTransfer_eq {n : Nat} {cur : Option Nat} {s : State} (hs : OnJob P cfg u cur s) :
    fastJobTransfer b ctx (cacheEntry p cfg q j) n s = syncJobTransfer b ctx j n s := by
  rw [fastJobTransfer, syncJobTransfer]
  refine res_bind_congr fun m hm => ?_
  have hm' := hb _ _ _ _ hm hs
  have hjob : (cacheEntry p cfg q j).job = j := rfl
  have hunit : (cacheEntry p cfg q j).unit = u := hu.symm
  have hclock : (cacheEntry p cfg q j).clockTiming = (cfg.jobAt j).dev.clockTiming := rfl
  have hunit' : m.unitOf j = u := by rw [State.unitOf, hm'.cfg, hu]
  rw [hjob, hunit, hclock, cacheEntry_chans]
  simp only [hunit', hm'.cfg]
  by_cases hoverlap : m.buffersOverlap j = true
  · rw [if_pos hoverlap, if_pos hoverlap]
  · rw [if_neg hoverlap, if_neg hoverlap]
    refine res_bind_congr fun m1 hm1 => ?_
    have hm1' := (OnJob.lasting hP).regWrite hm1 hm'
    rw [fastChannels_eq hP hb hu List.drop_zero (hm1'.enterSyncJob hP j), hm1'.cfg]

theorem syncSeqFast_eq {n : Nat} {cur : Option Nat} {s : State} (hjobs : (cfg.seqAt q).jobs = [j]) (hs : OnJob P cfg u cur s) :
    syncSeqFast b ctx (cacheEntry p cfg q j) n s = syncSeqGeneral b ctx q n s := by
  have hjob : (cacheEntry p cfg q j).job = j := rfl
  have hstatus : (cacheEntry p cfg q j).jobStatus = j := rfl
  rw [syncSeqFast, syncSeqGeneral, hs.cfg, hjobs, syncJobs, hjob, hstatus]
  refine res_bind_congr fun m hm => ?_
  have hbegin : OnJob P cfg u cur (syncJobBegin j m) := (hb _ _ _ _ hm hs).notifyResult hP j _ _ _
  rw [syncJobBegin] at hbegin ⊢
  simp only at hbegin ⊢
  rw [fastJobTransfer_eq hP hb hu hbegin]
  rfl

end

/-- Whichever path is selected, the answer is the general path's (R304, R311). -/
theorem syncTransfer_eq_general {P : State → Prop} (hP : AboutInputs P) {b : Boundary} {ctx : Ctx} {q n u : Nat} {s : State} (hfit : Fit s)
    (hu : u = s.unitOf (tget (s.cfg.seqAt q).jobs 0)) (hq : q < s.cfg.numSeqs) (hs : P s)
    (hb : ∀ cur, KeepsAt (OnJob P s.cfg u cur) b) : syncTransfer b ctx q n s = syncSeqGeneral b ctx q n s := by
  unfold syncTransfer
  split
  next e he =>
    obtain ⟨j, hjobs, rfl⟩ := hfit.cacheEntryOf_eq he
    have hj : j < s.cfg.numJobs := hfit.seqJob_lt hq (by rw [hjobs]; exact List.mem_cons_self)
    have hunit : u = s.unitOf j := by rw [hu, hjobs]; rfl
    exact syncSeqFast_eq hP hb hunit hjobs ⟨hs, rfl, hunit ▸ hfit.dev_lt (hfit.unitOf_lt hj), rfl⟩
  next => rfl

theorem board_dev_length {s t : State} (h : t.board = s.board) : t.dev.length = s.dev.length := by
  have hlen := congrArg List.length (board_cur h)
  rwa [List.length_map, List.length_map] at hlen

/-- Settles O35: `syncTransfer_eq_general`, for what the boundary leaves alone. -/
theorem fastPathEqualsGeneralPath : Obligations.FastPathEqualsGeneralPath := by
  unfold Obligations.FastPathEqualsGeneralPath
  intro ctx q timeout s htables hinit hq
  have hfit := fit_of_tablesOk htables hinit
  refine ⟨fun b hb => syncTransfer_eq_general aboutInputs_true hfit rfl hq trivial fun cur ctx' x y h hx => ?any,
    fun n hwaits => syncTransfer_eq_general aboutInputs_noProcedureWaits hfit rfl hq hwaits fun cur ctx' x y h hx => ?moves⟩
  case any =>
    obtain ⟨hcfg, hlen, hdev⟩ := hb ctx' x y h
    refine ⟨trivial, hcfg.trans hx.cfg, hlen.symm ▸ hx.dev, ?_⟩
    rw [State.curOf, hdev]; exact hx.cur
  case moves =>
    have hcalm := (deliver_quiet n).calm hx.prop h
    exact ⟨hcalm.waits, (board_cfg hcalm.board).trans hx.cfg, (board_dev_length hcalm.board).symm ▸ hx.dev, by
      rw [board_curOf hcalm.board]; exact hx.cur⟩

end Sys2Proof.Machine

/-! The passes of a synchronous channel, the channels of a job, and chip-select continuity (44_sync_transmit.md R306, R308;
41_engine_fifo.md R226 to R228). -/

namespace Sys2Proof.Machine

/-! What goes out on the wire, and what is reported -/

/-- What an entry adds to the `TXCMD` and `TXDATA` writes of a trace. -/
def Entry.onWire : Entry → List (Option Bool)
  | .regWrite _ (.txcmd c) => [some c.cont]
  | .regWrite _ (.txdata _) => [none]
  | _ => []

theorem wireWrites_cons (e : Entry) (es : List Entry) : wireWrites (e :: es) = e.onWire ++ wireWrites es := by
  cases e with
  | regWrite u w => cases w <;> rfl
  | _ => rfl

theorem wireWrites_append (es es' : List Entry) : wireWrites (es ++ es') = wireWrites es ++ wireWrites es' := by
  induction es with
  | nil => rfl
  | cons e rest ih => rw [List.cons_append, wireWrites_cons, wireWrites_cons, ih, List.append_assoc]

/-- A report of an error to one of the two sinks (60_exceptions.md R391, R405). -/
def Entry.isReport : Entry → Bool
  | .err _ _ => true
  | .demTimeout => true
  | _ => false

/-- No entry of a list is a report. -/
def Unreported (es : List Entry) : Prop := ∀ e ∈ es, e.isReport = false

theorem Unreported.append {es es' : List Entry} (h : Unreported es) (h' : Unreported es') : Unreported (es ++ es') :=
  List.forall_mem_append.2 ⟨h, h'⟩

theorem unreported_regWrites (u : Nat) (ws : List RegWrite) : Unreported (ws.map (.regWrite u)) :=
  List.forall_mem_map.2 fun _ _ => rfl

theorem unreported_notice (on : Bool) (k : NotifKind) (i : Nat) : Unreported (notice on k i) := by
  cases on <;> simp [Unreported, notice, Entry.isReport]

/-! The peripheral's receive FIFO under register writes (10_state.md R68) -/

/-- A write that does not reset the FIFOs. -/
def RegWrite.sparesRx : RegWrite → Bool
  | .ctrl _ _ => false
  | _ => true

theorem settleFrom_withRx (items : List TxItem) (p : Lpspi) (r : List Word) :
    settleFrom items { p with rxFifo := r } = { settleFrom items p with rxFifo := r } := by
  induction items generalizing p with
  | nil => rfl
  | cons a rest ih =>
    cases a with
    | frame v => rfl
    | cmd c => exact ih { p with shiftCmd := c, csHeld := p.csHeld && c.cont }

theorem settle_withRx (items : List TxItem) (p : Lpspi) (r : List Word) :
    Lpspi.settle items { p with rxFifo := r } = { Lpspi.settle items p with rxFifo := r } := by
  unfold Lpspi.settle
  split
  · rfl
  · exact settleFrom_withRx items p r

/-- Such a write does the same whatever waits in the receive FIFO. -/
theorem write_withRx {fifoSize free : Nat} {p : Lpspi} {w : RegWrite} (hw : w.sparesRx = true) (r : List Word) :
    Lpspi.write fifoSize free { p with rxFifo := r } w = { p.write fifoSize free w with rxFifo := r } := by
  cases w with
  | clkcfg v => rfl
  | fifoctrl a b => rfl
  | cspol v => rfl
  | ctrl a b => cases hw
  | txcmd c => exact settle_withRx _ { p with txCmd := c } r
  | txdata v =>
    have hcount : ({ p with rxFifo := r } : Lpspi).txCount = p.txCount := rfl
    simp only [Lpspi.write, hcount]
    split
    · rfl
    · exact settle_withRx _ p r

theorem writes_withRx {fifoSize free : Nat} {ws : List RegWrite} (hws : ∀ w ∈ ws, w.sparesRx = true) (p : Lpspi) (r : List Word) :
    Lpspi.writes fifoSize free { p with rxFifo := r } ws = { p.writes fifoSize free ws with rxFifo := r } := by
  induction ws generalizing p with
  | nil => rfl
  | cons w rest ih =>
    obtain ⟨hw, hrest⟩ := List.forall_mem_cons.1 hws
    have hfirst := write_withRx (fifoSize := fifoSize) (free := free) (p := p) hw r
    exact (congrArg (Lpspi.writes fifoSize free · rest) hfirst).trans (ih hrest (p.write fifoSize free w))

theorem writes_rxFifo {fifoSize free : Nat} {p : Lpspi} {ws : List RegWrite} (hws : ∀ w ∈ ws, w.sparesRx = true) :
    (p.writes fifoSize free ws).rxFifo = p.rxFifo :=
  (congrArg Lpspi.rxFifo (writes_withRx (fifoSize := fifoSize) (free := free) hws p p.rxFifo) :)

/-! What a stretch of passes does -/

/-- Byte `x` lies outside the receive buffer of channel `c`, if it keeps its frames. -/
def State.outsideRx (s : State) (c x : Nat) : Prop := ∀ a ∈ s.rxSpan c, x < a.start ∨ a.start + a.bytes ≤ x

theorem outsideFrame_of_outsideRx {s : State} {c i x : Nat} (hx : s.outsideRx c x) (hi : i < (s.chanAt c).length) :
    s.outsideFrame c i x := by
  intro p hdiscard hptr
  have hspan := hx ⟨p.toNat, s.bufBytes c⟩ (by simp [State.rxSpan, hdiscard, hptr])
  have hmul : (i + 1) * bpf (s.widthOf c) ≤ s.bufBytes c := Nat.mul_le_mul_right _ hi
  rw [Nat.succ_mul] at hmul
  simp only at hspan
  unfold frameAddr
  omega

/-- `Dev[u]` after the chip-select clear (R226). -/
def Dev.csCleared (d : Dev) : Dev :=
  { d with
    contCSActive := false
    cmdWord := if d.contCSActive = true then { d.cmdWord with cont := false } else d.cmdWord }

/-- The register writes of the chip-select clear. -/
def Dev.clearWrites (d : Dev) : List RegWrite := if d.contCSActive = true then [.txcmd { d.cmdWord with cont := false }] else []

theorem clearWrites_spareRx {d : Dev} : ∀ w ∈ d.clearWrites, w.sparesRx = true := by
  unfold Dev.clearWrites
  split <;> simp [RegWrite.sparesRx]

/-- What a channel still puts on the wire: its frames, and after the last frame of the last channel the chip-select clear (R308). -/
def Dev.wireLeft (last : Bool) (d : Dev) : List (Option Bool) :=
  List.replicate d.txRemaining none ++ if 0 < d.txRemaining ∧ last = true ∧ d.contCSActive = true then [some false] else []

theorem wireLeft_done {last : Bool} {d : Dev} (h : d.txRemaining = 0) : d.wireLeft last = [] := by simp [Dev.wireLeft, h]

/-- A frame before the last one of the last channel. -/
theorem wireLeft_sent {last : Bool} {d : Dev} (hleft : 0 < d.txRemaining) (hmore : ¬ ((d.sent 1).txRemaining = 0 ∧ last = true)) :
    d.wireLeft last = none :: (d.sent 1).wireLeft last := by
  obtain ⟨n, hn⟩ := Nat.exists_eq_succ_of_ne_zero hleft.ne'
  simp only [Dev.sent, hn, Nat.succ_sub_one] at hmore
  have htail : (0 < n.succ ∧ last = true ∧ d.contCSActive = true) ↔ (0 < n ∧ last = true ∧ d.contCSActive = true) := by
    exact ⟨fun ⟨_, hlast, hcont⟩ => ⟨Nat.pos_of_ne_zero fun hzero => hmore ⟨hzero, hlast⟩, hlast, hcont⟩,
      fun ⟨_, hlast, hcont⟩ => ⟨n.succ_pos, hlast, hcont⟩⟩
  simp only [Dev.wireLeft, Dev.sent, hn, Nat.succ_sub_one, htail, List.replicate_succ, List.cons_append]

/-- The last frame of the last channel. -/
theorem wireLeft_last {d : Dev} (hleft : d.txRemaining = 1) :
    d.wireLeft true = none :: if d.contCSActive = true then [some false] else [] := by
  simp [Dev.wireLeft, hleft]

/-- From memory `m` and record `d` to `m'` and `d'`, with the entries `es` sent out, the engine has moved frames of channel `c`. -/
structure Moved (s : State) (c : Nat) (last : Bool) (m : Memory) (d : Dev) (es : List Entry) (m' : Memory) (d' : Dev) : Prop where
  bytes : ∀ x, s.outsideRx c x → readByte m' x = readByte m x
  job : d'.curJob = d.curJob
  count : d'.txRemaining + d'.sentFrames = d.txRemaining + d.sentFrames
  rx : d'.rxRemaining ≤ d.rxRemaining
  cont : last = false → d'.contCSActive = d.contCSActive
  wire : d.wireLeft last = wireWrites es ++ d'.wireLeft last
  quiet : Unreported es

namespace Moved

variable {s : State} {c : Nat} {last : Bool} {m m' m'' : Memory} {d d' d'' : Dev} {es es' : List Entry}

theorem refl : Moved s c last m d [] m d := ⟨fun _ _ => rfl, rfl, rfl, le_rfl, fun _ => rfl, rfl, nofun⟩

theorem trans (h : Moved s c last m d es m' d') (h' : Moved s c last m' d' es' m'' d'') : Moved s c last m d (es ++ es') m'' d'' where
  bytes x hx := (h'.bytes x hx).trans (h.bytes x hx)
  job := h'.job.trans h.job
  count := h'.count.trans h.count
  rx := h'.rx.trans h.rx
  cont hlast := (h'.cont hlast).trans (h.cont hlast)
  wire := by rw [h.wire, h'.wire, wireWrites_append, List.append_assoc]
  quiet := h.quiet.append h'.quiet

/-- A register read. -/
theorem read (u : Nat) (r : RegRead) : Moved s c last m d [.regRead u r] m d :=
  ⟨fun _ _ => rfl, rfl, rfl, le_rfl, fun _ => rfl, rfl, by simp [Unreported, Entry.isReport]⟩

/-- A frame goes out. -/
theorem send (u : Nat) (v : Word) (hleft : 0 < d.txRemaining) (hmore : ¬ ((d.sent 1).txRemaining = 0 ∧ last = true)) :
    Moved s c last m d [.regWrite u (.txdata v)] m (d.sent 1) where
  bytes _ _ := rfl
  job := rfl
  count := by simp only [Dev.sent]; omega
  rx := le_rfl
  cont _ := rfl
  wire := wireLeft_sent hleft hmore
  quiet := by simp [Unreported, Entry.isReport]

/-- The last frame of the last channel goes out, and chip select is cleared. -/
theorem sendLast (u : Nat) (v : Word) (hone : d.txRemaining = 1) :
    Moved s c true m d ([.regWrite u (.txdata v)] ++ (d.sent 1).clearWrites.map (.regWrite u)) m (d.sent 1).csCleared where
  bytes _ _ := rfl
  job := rfl
  count := by simp only [Dev.csCleared, Dev.sent, hone]; omega
  rx := le_rfl
  cont := nofun
  wire := by
    have hnone : (d.sent 1).csCleared.txRemaining = 0 := by simp [Dev.csCleared, Dev.sent, hone]
    have hcont : (d.sent 1).contCSActive = d.contCSActive := rfl
    rw [wireLeft_last hone, wireLeft_done hnone, List.append_nil, Dev.clearWrites, hcont]
    cases d.contCSActive <;> rfl
  quiet := Unreported.append (by simp [Unreported, Entry.isReport]) (unreported_regWrites _ _)

/-- A frame comes in. -/
theorem receive (u : Nat) (v : Word) (hlen : 0 < (s.chanAt c).length) (hleft : 0 < d.rxRemaining) :
    Moved s c last m d [.regRead u (.rxdata v)] (s.keepFrame c ((s.chanAt c).length - d.rxRemaining) v m) (d.received 1) where
  bytes x hx := readByte_keepFrame_outside (outsideFrame_of_outsideRx hx (by omega)) v m
  job := rfl
  count := rfl
  rx := Nat.sub_le _ _
  cont _ := rfl
  wire := rfl
  quiet := by simp [Unreported, Entry.isReport]

end Moved

section
variable {s : State} {u c : Nat} {m : Memory} {d : Dev} {p : Lpspi} {es : List Entry} {t : State} (h : Alone s u)
include h

/-! One frame out, one frame in -/

/-- A frame that goes out with room for it: what is sent is the next one of the channel. -/
theorem sendFrame_cases {w : Width} (hroom : p.txCount < s.params.fifoSize) (hok : sendFrame u c w (s.onUnit u m d p es) = .ok t) :
    ∃ v, 0 < d.txRemaining ∧ t = s.onUnit u m (d.sent 1) (p.write s.params.fifoSize s.freeCount (.txdata v))
      (es ++ [.regWrite u (.txdata v)]) := by
  have hok' := hok
  obtain ⟨left, hl, hok'⟩ := res_bind_eq_ok.1 hok'
  obtain ⟨sent, hn, hok'⟩ := res_bind_eq_ok.1 hok'
  obtain ⟨v, hv, -⟩ := res_bind_eq_ok.1 hok'
  rw [devAt_onUnit h, countDown_eq_ok] at hl
  rw [devAt_onUnit h, countUp_eq_ok] at hn
  rw [devAt_onUnit h, onUnit_chanAt, txFrameValue_onUnit] at hv
  have hleft : 0 < d.txRemaining := by omega
  rw [sendFrame_onUnit h hleft hn.1 hroom hv] at hok
  exact ⟨v, hleft, (Except.ok.inj hok).symm⟩

omit h in
/-- A store that is made is the one of `State.keepFrame`. -/
theorem rxStoreFrame_eq {i : Nat} {v : Word} (hok : rxStoreFrame (s.onUnit u m d p es) c (s.widthOf c) i v = .ok t) :
    t = s.onUnit u (s.keepFrame c i v m) d p es := by
  obtain hdrop | ⟨q, hdiscard, hptr⟩ := keeps_or_drops s c
  · rw [rxStoreFrame_dropped (s := s.onUnit u m d p es) hdrop] at hok
    rw [keepFrame_dropped hdrop]
    exact (Except.ok.inj hok).symm
  · rw [keepFrame_stored hdiscard hptr]
    by_cases hi : i < (s.chanAt c).length
    · by_cases ha : frameAddr q (s.widthOf c) i + bpf (s.widthOf c) ≤ addressCount
      · rw [rxStoreFrame_stored (s := s.onUnit u m d p es) hdiscard hptr hi ha] at hok
        exact (Except.ok.inj hok).symm
      · simp [rxStoreFrame, hdiscard, hptr, hi, storeBytes, ha] at hok
    · rw [rxStoreFrame_outside (s := s.onUnit u m d p es) hdiscard hptr (by simpa using hi)] at hok
      cases hok

/-- A frame that comes in is the oldest one that waits. -/
theorem receiveFrame_cases {v : Word} {rest : List Word} (hfifo : p.rxFifo = v :: rest)
    (hok : receiveFrame u c (s.widthOf c) (s.onUnit u m d p es) = .ok t) :
    0 < d.rxRemaining ∧ t = s.onUnit u (s.keepFrame c ((s.chanAt c).length - d.rxRemaining) v m) (d.received 1)
      { p with rxFifo := rest } (es ++ [.regRead u (.rxdata v)]) := by
  obtain ⟨left, hl, hok⟩ := res_bind_eq_ok.1 hok
  obtain ⟨⟨v', m1⟩, hread, hok⟩ := res_bind_eq_ok.1 hok
  obtain ⟨m2, hstore, hok⟩ := res_bind_eq_ok.1 hok
  rw [devAt_onUnit h, countDown_eq_ok] at hl
  rw [readRxData_onUnit h hfifo] at hread
  cases hread
  rw [devAt_onUnit h, onUnit_chanAt] at hstore
  cases rxStoreFrame_eq hstore
  cases hok
  rw [devAt_onUnit h, setDev_onUnit, Dev.received, hl]
  exact ⟨Nat.succ_pos left, rfl⟩

/-! One pass (R306, R308) -/

theorem clearContCS_eq : clearContCS u (s.onUnit u m d p es) =
    .ok (s.onUnit u m d.csCleared (p.writes s.params.fifoSize s.freeCount d.clearWrites) (es ++ d.clearWrites.map (.regWrite u))) :=
  clearContCS_onUnit h rfl

/-- The transmit half of a pass. -/
theorem syncSend_cases {last : Bool} (hok : syncSend u c (s.widthOf c) last p.txCount (s.onUnit u m d p es) = .ok t) :
    ∃ d' p' es', t = s.onUnit u m d' p' (es ++ es') ∧ Moved s c last m d es' m d' ∧ p'.rxFifo = p.rxFifo := by
  rw [syncSend, devAt_onUnit h, onUnit_params] at hok
  split at hok
  next hsend =>
    obtain ⟨hleft, hroom⟩ := hsend
    obtain ⟨m1, hm1, hend⟩ := res_bind_eq_ok.1 hok
    obtain ⟨v, -, rfl⟩ := sendFrame_cases h hroom hm1
    have hrx : (p.write s.params.fifoSize s.freeCount (.txdata v)).rxFifo = p.rxFifo :=
      writes_rxFifo (ws := [.txdata v]) (by simp [RegWrite.sparesRx])
    rw [devAt_onUnit h] at hend
    split at hend
    next hclear =>
      obtain ⟨hzero, rfl⟩ := hclear
      have hone : d.txRemaining = 1 := by simp only [Dev.sent] at hzero; omega
      rw [clearContCS_eq h, List.append_assoc] at hend
      cases hend
      exact ⟨_, _, _, rfl, .sendLast u v hone, (writes_rxFifo clearWrites_spareRx).trans hrx⟩
    next hmore =>
      cases hend
      exact ⟨_, _, _, rfl, .send u v hleft hmore, hrx⟩
  next hidle =>
    cases hok
    exact ⟨d, p, [], by rw [List.append_nil], .refl, rfl⟩

/-- The receive half of a pass. -/
theorem syncReceive_cases {last : Bool} {rc : Nat} (hlen : 0 < (s.chanAt c).length) (hcount : rc = p.rxFifo.length)
    (hok : syncReceive u c (s.widthOf c) rc (s.onUnit u m d p es) = .ok t) :
    ∃ m' d' p' es', t = s.onUnit u m' d' p' (es ++ es') ∧ Moved s c last m d es' m' d' := by
  rw [syncReceive, devAt_onUnit h] at hok
  split at hok
  next hreceive =>
    obtain ⟨v, rest, hfifo⟩ := List.exists_cons_of_length_pos (hcount ▸ hreceive.2)
    obtain ⟨hleft, rfl⟩ := receiveFrame_cases h hfifo hok
    exact ⟨_, _, _, _, rfl, .receive u v hlen hleft⟩
  next =>
    cases hok
    exact ⟨m, d, p, [], by rw [List.append_nil], .refl⟩

/-- A pass reads `FIFOSTAT` and moves at most one frame each way. -/
theorem syncPass_cases {last : Bool} (hlen : 0 < (s.chanAt c).length)
    (hok : syncPass u c (s.widthOf c) last (s.onUnit u m d p es) = .ok t) :
    ∃ m' d' p' es', t = s.onUnit u m' d' p' (es ++ es') ∧ Moved s c last m d es' m' d' := by
  rw [syncPass, readFifoStat_onUnit h, res_ok_bind] at hok
  obtain ⟨m1, hsend, hreceive⟩ := res_bind_eq_ok.1 hok
  obtain ⟨d', p', es', rfl, hsent, hrx⟩ := syncSend_cases h hsend
  obtain ⟨m'', d'', p'', es'', rfl, hreceived⟩ := syncReceive_cases (last := last) h hlen (by rw [hrx]; rfl) hreceive
  refine ⟨m'', d'', p'', _, ?_, (Moved.read u (.fifostat p.txCount p.rxCount)).trans (hsent.trans hreceived)⟩
  simp only [List.append_assoc]

/-! The passes of a channel (R306, R309) -/

theorem syncLeft_onUnit : syncLeft u (s.onUnit u m d p es) = true ↔ ¬ (d.txRemaining = 0 ∧ d.rxRemaining = 0) := by
  simp only [syncLeft, devAt_onUnit h, Bool.or_eq_true, decide_eq_true_eq]
  omega

/-- The passes of a channel end with all frames moved, or in a time-out. -/
theorem syncPasses_cases {b : Boundary} (hb : ∀ ctx x, x.undisturbed = true → b ctx x = .ok x) {ctx : Ctx} {last : Bool} {n : Nat}
    {left : Option Nat} (hlen : 0 < (s.chanAt c).length)
    (hok : syncPasses b ctx u c (s.widthOf c) last n (s.onUnit u m d p es) = .ok (left, t)) :
    ∃ m' d' p' es', Moved s c last m d es' m' d' ∧
      ((left = none ∧ t = syncAbort u (s.onUnit u m' d' p' (es ++ es'))) ∨
        (left ≠ none ∧ t = s.onUnit u m' d' p' (es ++ es') ∧ d'.txRemaining = 0 ∧ d'.rxRemaining = 0)) := by
  have hnone : ¬ syncLeft u (s.onUnit u m d p es) = true → d.txRemaining = 0 ∧ d.rxRemaining = 0 := fun hleft =>
    not_not.1 (mt (syncLeft_onUnit h).2 hleft)
  induction n generalizing m d p es with
  | zero =>
    rw [syncPasses, hb ctx _ h.onUnit] at hok
    split at hok
    next =>
      cases hok
      exact ⟨m, d, p, [], .refl, .inl ⟨rfl, by rw [List.append_nil]⟩⟩
    next hleft =>
      cases hok
      exact ⟨m, d, p, [], .refl, .inr ⟨nofun, by rw [List.append_nil], hnone hleft⟩⟩
  | succ n ih =>
    rw [syncPasses, hb ctx _ h.onUnit] at hok
    split at hok
    next =>
      simp only at hok
      split at hok
      · cases hok
      next hpass =>
      obtain ⟨m1, d1, p1, es1, rfl, hmoved⟩ := syncPass_cases h hlen hpass
      obtain ⟨m', d', p', es', hmoved', hend⟩ := ih hok fun hleft => not_not.1 (mt (syncLeft_onUnit h).2 hleft)
      rw [List.append_assoc] at hend
      exact ⟨m', d', p', es1 ++ es', hmoved.trans hmoved', hend⟩
    next hleft =>
      cases hok
      exact ⟨m, d, p, [], .refl, .inr ⟨nofun, by rw [List.append_nil], hnone hleft⟩⟩

end

end Sys2Proof.Machine

/-! The channels of a synchronous job, and chip-select continuity (44_sync_transmit.md R306, R308; 41_engine_fifo.md R226 to R228). -/

namespace Sys2Proof.Machine

/-! The start of a channel (R306) -/

/-- The start of the channel at index `k` of the job in flight. -/
def startChannel (u k : Nat) (s : State) : Res State := do
  let s ← setChanIdx u k s
  let s ← txChannelInit u (decide (k = 0)) s
  rxChannelInit u s

theorem syncChannels_cons (b : Boundary) (ctx : Ctx) (u c : Nat) (rest : List Nat) (k n : Nat) (s : State) :
    syncChannels b ctx u (c :: rest) k n s = (startChannel u k s >>= fun s =>
      syncPasses b ctx u c (s.widthOf c) rest.isEmpty n s >>= fun r =>
        match r with
        | (none, s) => .ok (none, s)
        | (some n, s) => syncChannels b ctx u rest (k + 1) n s) := by
  simp only [syncChannels, startChannel, bind_assoc, channelAt_width]
  refine res_bind_congr fun _ _ => res_bind_congr fun _ _ => res_bind_congr fun _ _ => res_bind_congr fun r _ => ?_
  obtain ⟨left, t⟩ := r
  cases left <;> rfl

/-- Channel `c` of job `j` at index `k` has been started with the entries `es`, and `d` is the unit's record. -/
structure ChanStarted (s : State) (j c k : Nat) (d : Dev) (es : List Entry) : Prop where
  job : d.curJob = some j
  tx : d.txRemaining = (s.chanAt c).length
  rx : d.rxRemaining = (s.chanAt c).length
  sent : d.sentFrames = 0
  cont : d.contCSActive = (s.cfg.jobAt j).dev.contCS
  first : k = 0 → wireWrites es = [some (s.cfg.jobAt j).dev.contCS]
  wire : ∀ x ∈ wireWrites es, x = some (s.cfg.jobAt j).dev.contCS
  quiet : Unreported es

/-- The record with its two cursors at channel index `k`. -/
def Dev.atIdx (d : Dev) (k : Nat) : Dev := { d with txChanIdx := k, rxChanIdx := k }

/-- The record after the start of the first channel. -/
def Dev.chanStart (d : Dev) (s : State) (j c : Nat) : Dev :=
  { d.atIdx 0 with
    txRemaining := (s.chanAt c).length, rxRemaining := (s.chanAt c).length, sentFrames := 0
    cmdWord := chanCmd s.cfg j c (s.cfg.jobAt j).dev.contCS, contCSActive := (s.cfg.jobAt j).dev.contCS }

/-- The register writes at the start of the first channel (41_engine_fifo.md R214). -/
def State.chanStartWrites (s : State) (j c : Nat) : List RegWrite :=
  [.fifoctrl (s.cfg.channelAt c).wmTx (s.cfg.channelAt c).wmRx, .txcmd (chanCmd s.cfg j c (s.cfg.jobAt j).dev.contCS)]

section
variable {s : State} {u j c k : Nat} {m : Memory} {d : Dev} {p : Lpspi} {es : List Entry} (h : Alone s u)
include h

theorem startChannel_eq (hk : k ≤ 65535) : startChannel u k (s.onUnit u m d p es) =
    (txChannelInit u (decide (k = 0)) (s.onUnit u m (d.atIdx k) p es) >>= rxChannelInit u) := by
  rw [startChannel, setChanIdx_onUnit h hk, res_ok_bind]
  rfl

theorem startChannel_first (hcur : d.curJob = some j) (hc : c = s.chanOf j 0) (hlen : 0 < (s.chanAt c).length) :
    startChannel u 0 (s.onUnit u m d p es) = .ok (s.onUnit u m (d.chanStart s j c)
      (p.writes s.params.fifoSize s.freeCount (s.chanStartWrites j c)) (es ++ (s.chanStartWrites j c).map (.regWrite u))) := by
  have htx := txChannelInit_first (m := m) (d := d.atIdx 0) (p := p) (es := es) h hcur hc hlen
  rw [startChannel_eq h (Nat.zero_le _), decide_eq_true rfl, htx, res_ok_bind]
  exact rxChannelInit_onUnit h hcur hc hlen

/-- Every channel that has frames can be started. -/
theorem startChannel_onUnit (hcur : d.curJob = some j) (hc : c = s.chanOf j k) (hlen : 0 < (s.chanAt c).length) (hk : k ≤ 65535)
    (hcont : 0 < k → d.contCSActive = (s.cfg.jobAt j).dev.contCS) :
    ∃ d' p' es', startChannel u k (s.onUnit u m d p es) = .ok (s.onUnit u m d' p' (es ++ es')) ∧ ChanStarted s j c k d' es' := by
  obtain rfl | hpos := k.eq_zero_or_pos
  · refine ⟨_, _, _, startChannel_first h hcur hc hlen, hcur, rfl, rfl, rfl, rfl, fun _ => rfl, ?_, unreported_regWrites _ _⟩
    simp [State.chanStartWrites, wireWrites, chanCmd]
  · have htx := txChannelInit_next (m := m) (d := d.atIdx k) (p := p) (es := es) h hcur hc hlen rfl rfl
    have hstart := startChannel_eq (m := m) (d := d) (p := p) (es := es) h hk
    rw [decide_eq_false hpos.ne', htx, res_ok_bind] at hstart
    refine ⟨_, _, _, hstart.trans (rxChannelInit_onUnit h hcur hc hlen), hcur, rfl, rfl, rfl, hcont hpos,
      fun hzero => absurd hzero hpos.ne', ?_, unreported_regWrites _ _⟩
    have hword : (chanCmd s.cfg j c d.contCSActive).cont = (s.cfg.jobAt j).dev.contCS := hcont hpos
    split <;> simp [wireWrites, Dev.atIdx, hword]

/-- A channel that was started had frames. -/
theorem startChannel_cases {t : State} (hcur : d.curJob = some j) (hc : c = s.chanOf j k)
    (hcont : 0 < k → d.contCSActive = (s.cfg.jobAt j).dev.contCS) (hok : startChannel u k (s.onUnit u m d p es) = .ok t) :
    0 < (s.chanAt c).length ∧ ∃ d' p' es', t = s.onUnit u m d' p' (es ++ es') ∧ ChanStarted s j c k d' es' := by
  have hk : k ≤ 65535 := by
    obtain ⟨m1, hm1, -⟩ := res_bind_eq_ok.1 hok
    exact (setChanIdx_cases hm1).1
  have hlen : 0 < (s.chanAt c).length := by
    by_contra hzero
    have hzero' : (s.chanAt (s.chanOf j (d.atIdx k).txChanIdx)).length = 0 := by rw [← Nat.le_zero, ← not_lt]; exact hc ▸ hzero
    rw [startChannel_eq h hk, txChannelInit_zeroLength (d := d.atIdx k) h hcur hzero'] at hok
    cases hok
  obtain ⟨d', p', es', hstart, hstarted⟩ := startChannel_onUnit h hcur hc hlen hk hcont
  rw [hstart] at hok
  cases hok
  exact ⟨hlen, d', p', es', rfl, hstarted⟩

end

/-! The channels of a job (R306, R308) -/

/-- What goes out after the start of a channel, up to the end of its job: frames, with chip select held, and at the end its clear. -/
def HeldToEnd (cont : Bool) (ws : List (Option Bool)) : Prop :=
  ∃ mid, ws = mid ++ (if cont = true then [some false] else []) ∧ none ∈ mid ∧ ∀ x ∈ mid, x = none ∨ x = some cont

/-- Frames and starts of channels before it change nothing. -/
theorem HeldToEnd.append {cont : Bool} {pre ws : List (Option Bool)} (hpre : ∀ x ∈ pre, x = none ∨ x = some cont)
    (h : HeldToEnd cont ws) : HeldToEnd cont (pre ++ ws) := by
  obtain ⟨mid, rfl, hframe, hmid⟩ := h
  exact ⟨pre ++ mid, (List.append_assoc _ _ _).symm, List.mem_append_right _ hframe, List.forall_mem_append.2 ⟨hpre, hmid⟩⟩

/-- The frames of the last channel, and the clear. -/
theorem heldToEnd_wireLeft {d : Dev} (hleft : 0 < d.txRemaining) : HeldToEnd d.contCSActive (d.wireLeft true) := by
  refine ⟨List.replicate d.txRemaining none, by simp [Dev.wireLeft, hleft], ?_, fun x hx => .inl (List.eq_of_mem_replicate hx)⟩
  exact List.mem_replicate.2 ⟨hleft.ne', rfl⟩

theorem wireLeft_notLast (d : Dev) : d.wireLeft false = List.replicate d.txRemaining none := by simp [Dev.wireLeft]

/-- What the channels from index `k` on put on the wire: the start of the first of them, and all that follows. -/
def WireOfChannels (cont : Bool) (k : Nat) : List Nat → List (Option Bool) → Prop
  | [], ws => ws = []
  | _ :: _, ws => ∃ start held, ws = start ++ held ∧ HeldToEnd cont held ∧ (∀ x ∈ start, x = some cont) ∧
      (k = 0 → start = [some cont])

theorem WireOfChannels.cons {cont : Bool} {k c : Nat} {rest : List Nat} {start ws : List (Option Bool)} {d : Dev}
    (hstart : ∀ x ∈ start, x = some cont) (hfirst : k = 0 → start = [some cont]) (hleft : 0 < d.txRemaining)
    (hcont : d.contCSActive = cont) (h : WireOfChannels cont (k + 1) rest ws) :
    WireOfChannels cont k (c :: rest) (start ++ (d.wireLeft rest.isEmpty ++ ws)) := by
  refine ⟨start, _, rfl, ?_, hstart, hfirst⟩
  cases rest with
  | nil =>
    have hnone : ws = [] := h
    rw [hnone, List.append_nil, ← hcont]
    exact heldToEnd_wireLeft hleft
  | cons c' rest =>
    obtain ⟨start', held, rfl, hheld, hstart', -⟩ := h
    rw [List.isEmpty_cons, wireLeft_notLast, ← List.append_assoc]
    exact hheld.append (List.forall_mem_append.2 ⟨fun x hx => .inl (List.eq_of_mem_replicate hx), fun x hx => .inr (hstart' x hx)⟩)

/-- The channel that comes next. -/
theorem chanOf_of_drop {s : State} {j k c : Nat} {rest : List Nat} (hl : (s.cfg.jobAt j).channels.drop k = c :: rest) :
    k < s.numChannelsOf j ∧ c = s.chanOf j k ∧ (s.cfg.jobAt j).channels.drop (k + 1) = rest := by
  have hget : (s.cfg.jobAt j).channels[k]? = some c := by rw [← List.head?_drop, hl]; rfl
  refine ⟨(List.getElem?_eq_some_iff.1 hget).1, ?_, by rw [← List.drop_drop, hl]; rfl⟩
  rw [State.chanOf, tget, List.getD_eq_getElem?_getD, hget]; rfl

section
variable {s : State} {u j k : Nat} {m : Memory} {d : Dev} {p : Lpspi} {es : List Entry} {t : State} (h : Alone s u)
include h

/-- Channels end with all frames moved, or in a time-out. -/
theorem syncChannels_cases {b : Boundary} (hb : ∀ ctx x, x.undisturbed = true → b ctx x = .ok x) {ctx : Ctx} {l : List Nat} {n : Nat}
    {left : Option Nat} (hl : (s.cfg.jobAt j).channels.drop k = l) (hcur : d.curJob = some j)
    (hcont : 0 < k → l ≠ [] → d.contCSActive = (s.cfg.jobAt j).dev.contCS)
    (hok : syncChannels b ctx u l k n (s.onUnit u m d p es) = .ok (left, t)) :
    ∃ m' d' p' es', (∀ x, (∀ c ∈ l, s.outsideRx c x) → readByte m' x = readByte m x) ∧ Unreported es' ∧
      ((left = none ∧ t = syncAbort u (s.onUnit u m' d' p' (es ++ es'))) ∨
        (left ≠ none ∧ t = s.onUnit u m' d' p' (es ++ es') ∧
          WireOfChannels (s.cfg.jobAt j).dev.contCS k l (wireWrites es'))) := by
  induction l generalizing m d p es k n with
  | nil =>
    cases hok
    exact ⟨m, d, p, [], fun _ _ => rfl, nofun, .inr ⟨nofun, by rw [List.append_nil], rfl⟩⟩
  | cons c rest ih =>
    obtain ⟨-, hc, hrest⟩ := chanOf_of_drop hl
    rw [syncChannels_cons] at hok
    obtain ⟨t1, hstart, hok⟩ := res_bind_eq_ok.1 hok
    obtain ⟨hlen, d1, p1, es1, rfl, hstarted⟩ := startChannel_cases h hcur hc (fun hk => hcont hk (List.cons_ne_nil _ _)) hstart
    obtain ⟨⟨left2, t2⟩, hpasses, hok⟩ := res_bind_eq_ok.1 hok
    obtain ⟨m2, d2, p2, es2, hmoved, hend⟩ := syncPasses_cases h hb hlen hpasses
    obtain ⟨rfl, rfl⟩ | ⟨hsome, rfl, htx, -⟩ := hend
    · cases hok
      refine ⟨m2, d2, p2, es1 ++ es2, fun x hx => hmoved.bytes x (hx c List.mem_cons_self), hstarted.quiet.append hmoved.quiet,
        .inl ⟨rfl, by rw [List.append_assoc]⟩⟩
    · obtain ⟨left2, rfl⟩ := Option.ne_none_iff_exists'.1 hsome
      have hwire := hmoved.wire
      rw [wireLeft_done htx, List.append_nil] at hwire
      obtain ⟨m', d', p', es', hbytes, hquiet, hend⟩ := ih hrest (hmoved.job.trans hstarted.job)
        (fun _ hne => (hmoved.cont (by cases rest <;> trivial)).trans hstarted.cont) hok
      refine ⟨m', d', p', es1 ++ (es2 ++ es'), fun x hx => ?_, hstarted.quiet.append (hmoved.quiet.append hquiet), ?_⟩
      · rw [hbytes x fun c' hc' => hx c' (List.mem_cons_of_mem _ hc'), hmoved.bytes x (hx c List.mem_cons_self)]
      · simp only [List.append_assoc] at hend
        refine hend.imp id fun ⟨hleft, ht, hwires⟩ => ⟨hleft, ht, ?_⟩
        rw [wireWrites_append, wireWrites_append, ← hwire]
        exact .cons hstarted.wire hstarted.first (hstarted.tx ▸ hlen) hstarted.cont hwires

end

/-! A job (R306) -/

section
variable {s : State} {u j : Nat} {m : Memory} {d : Dev} {p : Lpspi} {es : List Entry} {t : State} (h : Alone s u)
include h

/-- The record at the start of a synchronous job. -/
def Dev.syncEntered (d : Dev) (j : Nat) : Dev := { d with curJob := some j, txDone := false, rxDone := false, contCSActive := false }

/-- The record at the end of a synchronous job. -/
def Dev.syncLeft (d : Dev) : Dev := { d with txDone := true, rxDone := true, curJob := none }

/-- A job whose buffers do not overlap: its clock write, its channels, its end. -/
theorem syncJobTransfer_eq {b : Boundary} (hb : ∀ ctx x, x.undisturbed = true → b ctx x = .ok x) {ctx : Ctx} {n : Nat}
    (hu : u = s.unitOf j) (hover : s.buffersOverlap j = false) :
    syncJobTransfer b ctx j n s = (syncChannels b ctx u (s.cfg.jobAt j).channels 0 n (s.onUnit u s.mem ((s.devAt u).syncEntered j)
      ((s.lpspiAt u).write s.params.fifoSize s.freeCount (.clkcfg (s.cfg.jobAt j).dev.clockTiming))
      [.regWrite u (.clkcfg (s.cfg.jobAt j).dev.clockTiming)]) >>= fun r => .ok (syncJobEnd u r)) := by
  rw [syncJobTransfer, hb ctx s h.calm, res_ok_bind, if_neg (by rw [hover]; exact Bool.false_ne_true), ← hu]
  simp only [regWrite_clkcfg h, res_ok_bind, enterSyncJob, devAt_onUnit h, setDev_onUnit, onUnit_cfg, Dev.syncEntered]

theorem leaveSyncJob_onUnit : leaveSyncJob u (s.onUnit u m d p es) = s.onUnit u m d.syncLeft p es := by
  rw [leaveSyncJob, devAt_onUnit h, setDev_onUnit]
  rfl

/-- A time-out writes the unit's record and dirties its peripheral. -/
theorem syncAbort_onUnit : ∃ d' p', syncAbort u (s.onUnit u m d p es) = { s.onUnit u m d' p' es with freeCount := s.freeCount + 1 } := by
  have heq := syncAbort_eq u (s.onUnit u m d p es)
  have hdev : (s.onUnit u m d p es).dev = s.dev.set u d := rfl
  have hlpspi : (s.onUnit u m d p es).lpspi = s.lpspi.set u p := rfl
  rw [devAt_onUnit h, hdev, hlpspi, List.set_set, List.set_set] at heq
  exact ⟨{ d with curJob := none, contCSActive := false }, _, heq⟩

/-- What a job does: it writes its unit, its receive buffers and the trace, and no report. -/
theorem syncJobTransfer_cases {b : Boundary} (hb : ∀ ctx x, x.undisturbed = true → b ctx x = .ok x) {ctx : Ctx} {n : Nat}
    {left : Option Nat} (hu : u = s.unitOf j) (hok : syncJobTransfer b ctx j n s = .ok (left, t)) :
    ∃ m d p f es, t = { s.onUnit u m d p es with freeCount := f } ∧ Unreported es ∧
      (∀ x, (∀ c ∈ (s.cfg.jobAt j).channels, s.outsideRx c x) → readByte m x = readByte s.mem x) ∧
      (left ≠ none → WireOfChannels (s.cfg.jobAt j).dev.contCS 0 (s.cfg.jobAt j).channels (wireWrites es)) := by
  have hover : s.buffersOverlap j = false := by
    rw [syncJobTransfer, hb ctx s h.calm, res_ok_bind] at hok
    split at hok
    · cases hok
    · simpa using ‹¬ s.buffersOverlap j = true›
  rw [syncJobTransfer_eq h hb hu hover] at hok
  obtain ⟨⟨left', t1⟩, hchannels, hend⟩ := res_bind_eq_ok.1 hok
  obtain ⟨m, d, p, es, hbytes, hquiet, hcases⟩ := syncChannels_cases h hb List.drop_zero (by rfl) nofun hchannels
  have hclock : Unreported [.regWrite u (.clkcfg (s.cfg.jobAt j).dev.clockTiming)] := unreported_regWrites u [_]
  obtain ⟨rfl, rfl⟩ | ⟨hsome, rfl, hwires⟩ := hcases
  · obtain ⟨d', p', habort⟩ := syncAbort_onUnit (m := m) (d := d) (p := p) (es := _ ++ es) h
    rw [syncJobEnd, habort] at hend
    cases hend
    exact ⟨m, d', p', _, _, rfl, hclock.append hquiet, hbytes, fun hne => absurd rfl hne⟩
  · obtain ⟨n', rfl⟩ := Option.ne_none_iff_exists'.1 hsome
    rw [syncJobEnd, leaveSyncJob_onUnit h] at hend
    cases hend
    exact ⟨m, d.syncLeft, p, s.freeCount, _, rfl, hclock.append hquiet, hbytes, fun _ => hwires⟩

end

/-- Settles O37: the wire of a job's channels, from the start of the first to the clear after the last. -/
theorem syncChipSelectContinuity : Obligations.SyncChipSelectContinuity := by
  unfold Obligations.SyncChipSelectContinuity
  intro n ctx j timeout left s t hcalm htables hinit hj hok
  have hfit := fit_of_tablesOk htables hinit
  have halone : Alone s (s.unitOf j) := .of_tablesOk htables hinit (hfit.unitOf_lt hj) hcalm
  obtain ⟨m, d, p, f, es, rfl, -, -, hwires⟩ :=
    syncJobTransfer_cases halone (fun ctx x hx => deliver_undisturbed hx n ctx) rfl hok
  obtain ⟨c, rest, hchannels⟩ := List.exists_cons_of_ne_nil (hfit.channels_ne_nil hj)
  have hwire := hwires nofun
  rw [hchannels] at hwire
  obtain ⟨start, held, hsplit, ⟨mid, rfl, hframe, hmid⟩, -, hfirst⟩ := hwire
  rw [hfirst rfl] at hsplit
  refine ⟨es, rfl, fun hcont => ⟨mid, ?ends, ?held, hframe⟩, fun hcont => ?never⟩
  case ends => rw [hsplit, hcont]; rfl
  case held =>
    intro hclear
    obtain hx | hx := hmid _ hclear
    · cases hx
    · rw [hcont] at hx; cases hx
  case never =>
    rw [hsplit, hcont]
    intro hset
    have hin : some true ∈ mid := by simpa using hset
    obtain hx | hx := hmid _ hin
    · cases hx
    · rw [hcont] at hx; cases hx

end Sys2Proof.Machine

/-! A synchronous job that can be transferred always ends (44_sync_transmit.md R306, R309, R315). -/

namespace Sys2Proof.Machine

@[simp] theorem onUnit_widthOf (s : State) (u c : Nat) (m : Memory) (d : Dev) (p : Lpspi) (es : List Entry) :
    (s.onUnit u m d p es).widthOf c = s.widthOf c := rfl

section
variable {s : State} {u c : Nat} {m : Memory} {d : Dev} {p : Lpspi} {es : List Entry} (h : Alone s u) {last : Bool}
  (hready : s.chanReady c = true)
include h hready

theorem syncSend_completes (hcount : d.txRemaining + d.sentFrames = (s.chanAt c).length) :
    ∃ t, syncSend u c (s.widthOf c) last p.txCount (s.onUnit u m d p es) = .ok t := by
  obtain ⟨hlen, hmax, -⟩ := chanReady_iff.1 hready
  rw [syncSend, devAt_onUnit h, onUnit_params]
  split
  next hsend =>
    obtain ⟨hleft, hroom⟩ := hsend
    obtain ⟨v, hv⟩ := txFrameValue_of_chanReady hready (i := (s.chanAt c).length - d.txRemaining) (by omega) m
    rw [sendFrame_onUnit h hleft (by omega) hroom hv, res_ok_bind, clearContCS_eq h]
    split
    · exact ⟨_, rfl⟩
    · exact ⟨_, rfl⟩
  next => exact ⟨_, rfl⟩

theorem syncReceive_completes {rc : Nat} (hrc : rc = p.rxFifo.length) (hrx : d.rxRemaining ≤ (s.chanAt c).length) :
    ∃ t, syncReceive u c (s.widthOf c) rc (s.onUnit u m d p es) = .ok t := by
  rw [syncReceive, devAt_onUnit h]
  split
  next hreceive =>
    obtain ⟨v, rest, hfifo⟩ := List.exists_cons_of_length_pos (hrc ▸ hreceive.2)
    exact ⟨_, receiveFrame_onUnit h hreceive.1 hfifo hready hrx⟩
  next => exact ⟨_, rfl⟩

theorem syncPass_completes (hcount : d.txRemaining + d.sentFrames = (s.chanAt c).length) (hrx : d.rxRemaining ≤ (s.chanAt c).length) :
    ∃ t, syncPass u c (s.widthOf c) last (s.onUnit u m d p es) = .ok t := by
  rw [syncPass, readFifoStat_onUnit h, res_ok_bind]
  obtain ⟨t, hsend⟩ := syncSend_completes (m := m) (p := p) (es := es ++ [.regRead u (.fifostat p.txCount p.rxCount)]) h (last := last)
    hready hcount
  obtain ⟨d', p', es', rfl, hsent, hfifo⟩ := syncSend_cases h hsend
  simp only [hsend, res_ok_bind]
  exact syncReceive_completes h hready (by rw [hfifo]; rfl) (hsent.rx.trans hrx)

theorem syncPasses_completes {b : Boundary} (hb : ∀ ctx x, x.undisturbed = true → b ctx x = .ok x) {ctx : Ctx} {n : Nat}
    (hcount : d.txRemaining + d.sentFrames = (s.chanAt c).length) (hrx : d.rxRemaining ≤ (s.chanAt c).length) :
    ∃ r, syncPasses b ctx u c (s.widthOf c) last n (s.onUnit u m d p es) = .ok r := by
  induction n generalizing m d p es with
  | zero =>
    rw [syncPasses, hb ctx _ h.onUnit]
    split
    · exact ⟨_, rfl⟩
    · exact ⟨_, rfl⟩
  | succ n ih =>
    rw [syncPasses, hb ctx _ h.onUnit]
    split
    · obtain ⟨hlen, -⟩ := chanReady_iff.1 hready
      obtain ⟨t, hpass⟩ := syncPass_completes (m := m) (p := p) (es := es) h (last := last) hready hcount hrx
      obtain ⟨m', d', p', es', rfl, hmoved⟩ := syncPass_cases h hlen hpass
      simp only [hpass]
      exact ih (hmoved.count.trans hcount) (hmoved.rx.trans hrx)
    · exact ⟨_, rfl⟩

end

section
variable {s : State} {u j : Nat} {m : Memory} {d : Dev} {p : Lpspi} {es : List Entry} (h : Alone s u) {b : Boundary}
  (hb : ∀ ctx x, x.undisturbed = true → b ctx x = .ok x) {ctx : Ctx}
include h hb

theorem syncChannels_completes {l : List Nat} {k n : Nat} (hl : (s.cfg.jobAt j).channels.drop k = l) (hcur : d.curJob = some j)
    (hcont : 0 < k → l ≠ [] → d.contCSActive = (s.cfg.jobAt j).dev.contCS) (hmax : s.numChannelsOf j ≤ 65535)
    (hready : ∀ c ∈ l, s.chanReady c = true) : ∃ r, syncChannels b ctx u l k n (s.onUnit u m d p es) = .ok r := by
  induction l generalizing m d p es k n with
  | nil => exact ⟨_, rfl⟩
  | cons c rest ih =>
    obtain ⟨hready, hreadyRest⟩ := List.forall_mem_cons.1 hready
    obtain ⟨hk, hc, hrest⟩ := chanOf_of_drop hl
    obtain ⟨hlen, -⟩ := chanReady_iff.1 hready
    obtain ⟨d1, p1, es1, hstart, hstarted⟩ := startChannel_onUnit (m := m) (p := p) (es := es) h hcur hc hlen (by omega)
      fun hk => hcont hk (List.cons_ne_nil _ _)
    obtain ⟨⟨left, t⟩, hpasses⟩ := syncPasses_completes (m := m) (p := p1) (es := es ++ es1) (ctx := ctx) (n := n) (last := rest.isEmpty) h
      hready hb (by rw [hstarted.tx, hstarted.sent, Nat.add_zero]) hstarted.rx.le
    rw [syncChannels_cons, hstart, res_ok_bind, onUnit_widthOf, hpasses, res_ok_bind]
    obtain ⟨m2, d2, p2, es2, hmoved, hend⟩ := syncPasses_cases h hb hlen hpasses
    obtain ⟨rfl, -⟩ | ⟨hsome, rfl, -⟩ := hend
    · exact ⟨_, rfl⟩
    · obtain ⟨left, rfl⟩ := Option.ne_none_iff_exists'.1 hsome
      exact ih hrest (hmoved.job.trans hstarted.job) (fun _ hne => (hmoved.cont (by cases rest <;> trivial)).trans hstarted.cont)
        hreadyRest

theorem syncJobTransfer_completes {n : Nat} (hu : u = s.unitOf j)
    (hmax : s.numChannelsOf j ≤ 65535) (hready : s.jobReady j = true) : ∃ r, syncJobTransfer b ctx j n s = .ok r := by
  obtain ⟨-, hover, hchans⟩ := jobReady_iff.1 hready
  obtain ⟨r, hrun⟩ := syncChannels_completes (m := s.mem) (d := (s.devAt u).syncEntered j)
    (p := (s.lpspiAt u).write s.params.fifoSize s.freeCount (.clkcfg (s.cfg.jobAt j).dev.clockTiming))
    (es := [.regWrite u (.clkcfg (s.cfg.jobAt j).dev.clockTiming)]) (ctx := ctx) (n := n) h hb List.drop_zero rfl nofun hmax hchans
  exact ⟨_, by rw [syncJobTransfer_eq h hb hu hover, hrun, res_ok_bind]⟩

end

end Sys2Proof.Machine

/-! The jobs of a synchronous transmit, and the command around them (44_sync_transmit.md R303, R305, R312, R313, R315; 60_exceptions.md
R405). -/

namespace Sys2Proof.Machine

/-! What jobs leave alone -/

/-- From `s` to `t`, with the entries `es` sent out, only the jobs of a list have run. -/
structure OnlyJobs (s t : State) (jobs : List Nat) (es : List Entry) : Prop where
  frame : t = { s with
    job := t.job, dev := t.dev, lpspi := t.lpspi, mem := t.mem, freeCount := t.freeCount, trace := s.trace ++ es }
  quiet : Unreported es
  sizes : t.job.length = s.job.length ∧ t.dev.length = s.dev.length ∧ t.lpspi.length = s.lpspi.length
  locks : ∀ j, (t.jobAt j).owner = (s.jobAt j).owner ∧ (t.jobAt j).next = (s.jobAt j).next
  others : ∀ j, j ∉ jobs → t.jobAt j = s.jobAt j
  units : ∀ u, (∀ j ∈ jobs, s.unitOf j ≠ u) → t.devAt u = s.devAt u ∧ t.lpspiAt u = s.lpspiAt u
  bytes : ∀ x, (∀ j ∈ jobs, ∀ c ∈ (s.cfg.jobAt j).channels, s.outsideRx c x) → readByte t.mem x = readByte s.mem x

namespace OnlyJobs

variable {s t v : State} {jobs jobs' : List Nat} {es es' : List Entry}

theorem cfg (h : OnlyJobs s t jobs es) : t.cfg = s.cfg := by rw [h.frame]

theorem unitOf (h : OnlyJobs s t jobs es) (j : Nat) : t.unitOf j = s.unitOf j := by rw [State.unitOf, h.cfg]; rfl

theorem rxSpan (h : OnlyJobs s t jobs es) (c : Nat) : t.rxSpan c = s.rxSpan c := by rw [h.frame]; rfl

theorem jobReady (h : OnlyJobs s t jobs es) (j : Nat) : t.jobReady j = s.jobReady j := by rw [h.frame]; rfl

theorem undisturbed (h : OnlyJobs s t jobs es) (hs : s.undisturbed = true) : t.undisturbed = true := by rw [h.frame]; exact hs

theorem refl (s : State) (jobs : List Nat) : OnlyJobs s s jobs [] :=
  ⟨by rw [List.append_nil], nofun, ⟨rfl, rfl, rfl⟩, fun _ => ⟨rfl, rfl⟩, fun _ _ => rfl, fun _ _ => ⟨rfl, rfl⟩, fun _ _ => rfl⟩

theorem mono (h : OnlyJobs s t jobs es) (hsub : jobs ⊆ jobs') : OnlyJobs s t jobs' es where
  frame := h.frame
  quiet := h.quiet
  sizes := h.sizes
  locks := h.locks
  others j hj := h.others j fun hin => hj (hsub hin)
  units u hu := h.units u fun j hj => hu j (hsub hj)
  bytes x hx := h.bytes x fun j hj => hx j (hsub hj)

theorem trans (h : OnlyJobs s t jobs es) (h' : OnlyJobs t v jobs es') : OnlyJobs s v jobs (es ++ es') where
  frame := by
    have hv := h'.frame
    rw [h.frame] at hv
    rw [hv, List.append_assoc]
  quiet := h.quiet.append h'.quiet
  sizes :=
    ⟨h'.sizes.1.trans h.sizes.1, h'.sizes.2.1.trans h.sizes.2.1, h'.sizes.2.2.trans h.sizes.2.2⟩
  locks j := ⟨(h'.locks j).1.trans (h.locks j).1, (h'.locks j).2.trans (h.locks j).2⟩
  others j hj := (h'.others j hj).trans (h.others j hj)
  units u hu := by
    obtain ⟨hdev, hlpspi⟩ := h.units u hu
    obtain ⟨hdev', hlpspi'⟩ := h'.units u fun j hj => by rw [h.unitOf]; exact hu j hj
    exact ⟨hdev'.trans hdev, hlpspi'.trans hlpspi⟩
  bytes x hx := by
    refine (h'.bytes x fun j hj c hc => ?_).trans (h.bytes x hx)
    rw [State.outsideRx, h.rxSpan]
    exact hx j hj c (by rwa [h.cfg] at hc)

end OnlyJobs

/-- A result and its notification. -/
theorem onlyJobs_notifyResult {s : State} {j : Nat} (hj : j < s.job.length) (r : JobResult) (on : Bool) (k : NotifKind) :
    OnlyJobs s (notify on k j (s.setJobResult j r)) [j] (notice on k j) := by
  rw [notify_eq]
  have hat : ∀ i, (s.setJobResult j r).jobAt i = if j = i then { s.jobAt j with result := r } else s.jobAt i := tget_tset hj _
  refine ⟨rfl, unreported_notice _ _ _, ⟨List.length_set, rfl, rfl⟩, fun i => ?locks, fun i hi => ?others, fun _ _ => ⟨rfl, rfl⟩,
    fun _ _ => rfl⟩
  case locks =>
    show ((s.setJobResult j r).jobAt i).owner = _ ∧ ((s.setJobResult j r).jobAt i).next = _
    rw [hat]
    split
    next heq => exact heq ▸ ⟨rfl, rfl⟩
    next => exact ⟨rfl, rfl⟩
  case others => exact (hat i).trans (if_neg fun heq => hi (by rw [heq]; exact List.mem_singleton_self i))

/-- The transfer of a job. -/
theorem onlyJobs_syncJobTransfer {s t : State} {j n : Nat} {b : Boundary} {ctx : Ctx} {left : Option Nat} (h : Alone s (s.unitOf j))
    (hb : ∀ ctx x, x.undisturbed = true → b ctx x = .ok x) (hok : syncJobTransfer b ctx j n s = .ok (left, t)) :
    ∃ es, OnlyJobs s t [j] es := by
  obtain ⟨m, d, p, f, es, rfl, hquiet, hbytes, -⟩ := syncJobTransfer_cases h hb rfl hok
  refine ⟨es, rfl, hquiet, ⟨rfl, List.length_set, List.length_set⟩, fun _ => ⟨rfl, rfl⟩, fun _ _ => rfl, fun u hu => ?_,
    fun x hx => hbytes x (hx j List.mem_cons_self)⟩
  have hne := hu j List.mem_cons_self
  exact ⟨tget_tset_ne _ _ _ _ hne, tget_tset_ne _ _ _ _ hne⟩

/-! The jobs of a sequence (R305, R315) -/

/-- Job `j` can run on its unit. -/
structure CanRun (s : State) (j : Nat) : Prop where
  ready : s.jobReady j = true
  unit : Alone s (s.unitOf j)
  slot : j < s.job.length
  channels : s.numChannelsOf j ≤ 65535

theorem CanRun.after {s t : State} {i : Nat} {jobs : List Nat} {es : List Entry} (h : CanRun s i) (ht : OnlyJobs s t jobs es) :
    CanRun t i where
  ready := (ht.jobReady i).trans h.ready
  unit := by
    obtain ⟨-, hdev, hlpspi⟩ := ht.sizes
    rw [ht.unitOf]
    exact ⟨hdev.symm ▸ h.unit.dev, hlpspi.symm ▸ h.unit.lpspi, ht.undisturbed h.unit.calm⟩
  slot := ht.sizes.1.symm ▸ h.slot
  channels := by rw [State.numChannelsOf, ht.cfg]; exact h.channels

section
variable {s : State} {n : Nat} {ctx : Ctx}

/-- The jobs after a failed one. -/
theorem syncJobs_afterFailure {jobs : List Nat} (hcalm : s.undisturbed = true) (hslot : ∀ j ∈ jobs, j < s.job.length) :
    ∃ t es, syncJobs (deliver n) ctx jobs none s = .ok (none, t) ∧ OnlyJobs s t jobs es ∧
      ∀ j ∈ jobs, (t.jobAt j).result = .failed := by
  obtain ⟨t, hrun, hframe, hlength, hfailed, hothers⟩ := syncJobs_poisoned (n := n) (ctx := ctx) jobs hcalm
  have hfailedAt : ∀ j ∈ jobs, t.jobAt j = { s.jobAt j with result := .failed } := fun j hj => hfailed j hj (hslot j hj)
  refine ⟨t, jobs.flatMap fun j => notice (s.cfg.jobAt j).endNotif .jobEnd j, hrun, ⟨?frame, ?quiet,
    ⟨hlength, by rw [hframe], by rw [hframe]⟩, fun j => ?locks, hothers, fun u _ => ?units, fun x _ => by rw [hframe]⟩,
    fun j hj => by rw [hfailedAt j hj]⟩
  case frame => rw [hframe]
  case quiet =>
    intro e he
    obtain ⟨j, -, hj⟩ := List.mem_flatMap.1 he
    exact unreported_notice _ _ _ e hj
  case locks =>
    by_cases hj : j ∈ jobs
    · rw [hfailedAt j hj]; exact ⟨rfl, rfl⟩
    · rw [hothers j hj]; exact ⟨rfl, rfl⟩
  case units => rw [hframe]; exact ⟨rfl, rfl⟩

/-- One job, from its start notification to its end notification. -/
theorem syncJob_runs {j timeout : Nat} (hj : CanRun s j) : ∃ left t es,
    OnlyJobs s t [j] es ∧ (t.jobAt j).result = syncVerdict left ∧ ∀ rest,
      syncJobs (deliver n) ctx (j :: rest) (some timeout) s = syncJobs (deliver n) ctx rest left t := by
  have hb : ∀ ctx x, x.undisturbed = true → deliver n ctx x = .ok x := fun ctx x hx => deliver_undisturbed hx n ctx
  have hbegin : OnlyJobs s (syncJobBegin j s) [j] _ := onlyJobs_notifyResult hj.slot .pending _ _
  have hj1 := hj.after hbegin
  obtain ⟨⟨left, t⟩, hrun⟩ := syncJobTransfer_completes (ctx := ctx) (n := timeout) hj1.unit hb rfl hj1.channels hj1.ready
  obtain ⟨es, htransfer⟩ := onlyJobs_syncJobTransfer hj1.unit hb hrun
  have hj2 := hj1.after htransfer
  have hresult : OnlyJobs t (syncResult j (syncVerdict left) t) [j] _ := onlyJobs_notifyResult hj2.slot _ _ _
  refine ⟨left, _, _, (hbegin.trans htransfer).trans hresult, by rw [syncResult_jobAt_same hj2.slot], fun rest => ?_⟩
  rw [syncJobs, hb ctx s hj.unit.calm, res_ok_bind]
  simp only [hrun, res_ok_bind, hb ctx t hj2.unit.calm]

/-- The jobs of a sequence all run, or one of them fails. -/
theorem syncJobs_runs {jobs : List Nat} {timeout : Nat} (hcalm : s.undisturbed = true) (hjobs : ∀ j ∈ jobs, CanRun s j) :
    ∃ left t es, syncJobs (deliver n) ctx jobs (some timeout) s = .ok (left, t) ∧ OnlyJobs s t jobs es ∧
      (left ≠ none → ∀ j ∈ jobs, (t.jobAt j).result = .ok) ∧ (left = none → ∃ j ∈ jobs, (t.jobAt j).result = .failed) := by
  induction jobs generalizing s timeout with
  | nil => exact ⟨some timeout, s, [], rfl, .refl s [], nofun, nofun⟩
  | cons j rest ih =>
    obtain ⟨hj, hrest⟩ := List.forall_mem_cons.1 hjobs
    obtain ⟨left, t, es, honly, hverdict, hrun⟩ := syncJob_runs (n := n) (ctx := ctx) (timeout := timeout) hj
    have hfirst : OnlyJobs s t (j :: rest) es := honly.mono (by simp)
    have hcalm' := honly.undisturbed hcalm
    cases left with
    | none =>
      obtain ⟨v, es', hfail, honly', hfailed⟩ :=
        syncJobs_afterFailure (n := n) (ctx := ctx) hcalm' fun i hi => ((hrest i hi).after honly).slot
      refine ⟨none, v, _, (hrun rest).trans hfail, hfirst.trans (honly'.mono (List.subset_cons_self _ _)), fun hne => absurd rfl hne,
        fun _ => ⟨j, List.mem_cons_self, ?_⟩⟩
      by_cases hin : j ∈ rest
      · exact hfailed j hin
      · rw [honly'.others j hin]; exact hverdict
    | some left =>
      obtain ⟨left', v, es', hruns, honly', hok, hfailed⟩ := ih (timeout := left) hcalm' fun i hi => (hrest i hi).after honly
      refine ⟨left', v, _, (hrun rest).trans hruns, hfirst.trans (honly'.mono (List.subset_cons_self _ _)),
        fun hne => List.forall_mem_cons.2 ⟨?_, hok hne⟩, fun hnone => ?_⟩
      · by_cases hin : j ∈ rest
        · exact hok hne j hin
        · rw [honly'.others j hin]; exact hverdict
      · obtain ⟨i, hi, hfail⟩ := hfailed hnone
        exact ⟨i, List.mem_cons_of_mem _ hi, hfail⟩

end

/-! The command around the jobs (R303, R312, R313) -/

/-- Giving back what was claimed restores the mask (R303, R312). -/
theorem mask_claim_release {m used : Word} (hfree : m &&& used = 0) : (m ||| used) &&& ~~~used = m := by
  ext i hi
  have hbit : (m &&& used)[i] = false := by rw [hfree]; exact BitVec.getElem_zero hi
  rw [BitVec.getElem_and] at hbit
  rw [BitVec.getElem_and, BitVec.getElem_or, BitVec.getElem_not]
  cases hm : m[i] <;> cases hused : used[i] <;> simp_all

/-- Nothing keeps `SYNC_TRANSMIT` from running sequence `q` (R303). -/
structure SyncAccepted (s : State) (q : Nat) : Prop where
  fit : Fit s
  calm : s.undisturbed = true
  level : s.params.level ≠ .asyncOnly
  range : q < s.cfg.numSeqs
  sync : s.seqIsSync q = true
  result : (s.seqAt q).result ≠ .pending
  free : s.syncBusyMask &&& s.usedUnits q = 0

/-- What the last segment sends out before the response (R313, 60_exceptions.md R405). -/
def State.syncTail (s : State) (q : Nat) (failed : Bool) : List Entry :=
  (if failed = true ∧ s.params.demConfigured = true then [.demTimeout] else []) ++
    notice (s.params.syncFiresSeqEnd && (s.cfg.seqAt q).endNotif) .seqEnd q

theorem Unreported.not_mem {es : List Entry} (h : Unreported es) {e : Entry} (he : e.isReport = true) : e ∉ es := fun hmem => by
  rw [h e hmem] at he
  cases he

theorem demTimeout_mem_syncTail {s : State} {q : Nat} {failed : Bool} :
    .demTimeout ∈ s.syncTail q failed ↔ failed = true ∧ s.params.demConfigured = true := by
  rw [State.syncTail, List.mem_append, or_iff_left ((unreported_notice _ _ _).not_mem rfl)]
  split <;> simp_all

theorem err_not_mem_syncTail {s : State} {q : Nat} {failed : Bool} {op : Byte} {e : ErrName} : .err op e ∉ s.syncTail q failed := by
  rw [State.syncTail, List.mem_append, or_iff_left ((unreported_notice _ _ _).not_mem rfl)]
  split <;> simp

theorem reportDemTimeout_eq (s : State) :
    reportDemTimeout s = { s with trace := s.trace ++ if s.params.demConfigured = true then [.demTimeout] else [] } := by
  unfold reportDemTimeout
  split
  · rfl
  · rw [List.append_nil]

theorem syncFinish_eq (q : Nat) (failed : Bool) (s : State) :
    syncFinish q failed s = s.says (s.syncTail q failed) (if failed = true then 1 else 0) := by
  cases failed with
  | false => simp only [syncFinish, State.syncTail, notify_eq, respond_eq_says, State.says, Bool.false_eq_true, false_and, if_false,
      List.nil_append, List.append_nil]; rfl
  | true => simp only [syncFinish, State.syncTail, reportDemTimeout_eq, notify_eq, respond_eq_says, State.says, true_and, if_true,
      List.append_assoc, List.append_nil]; rfl

/-- The jobs of an accepted sequence, and what is released after them. -/
theorem finish_release {s : State} {q : Nat} (h : SyncAccepted s q) (failed : Bool) {m : State} {jobs : List Nat} {es : List Entry}
    (hm : OnlyJobs (claimSync q s) m jobs es) :
    syncFinish q failed (releaseSync q failed m) = { s with
      seq := s.seq.set q { s.seqAt q with result := if failed = true then .failed else .ok }
      job := m.job, dev := m.dev, lpspi := m.lpspi, mem := m.mem, freeCount := m.freeCount
      trace := s.trace ++ (es ++ s.syncTail q failed) ++ [.rsp (if failed = true then 1 else 0)] } := by
  have hseq := congrArg State.seq (setSeqResult_setSeqResult (h.fit.seq_lt h.range) .pending (if failed = true then .failed else .ok))
  have hmask : (claimSync q s).syncBusyMask &&& ~~~(s.usedUnits q) = s.syncBusyMask := mask_claim_release h.free
  have hrelease : releaseSync q failed m = { s with
      seq := s.seq.set q { s.seqAt q with result := if failed = true then .failed else .ok }
      job := m.job, dev := m.dev, lpspi := m.lpspi, mem := m.mem, freeCount := m.freeCount, trace := s.trace ++ es } := by
    refine (congrArg (releaseSync q failed) hm.frame).trans ?_
    show { s with
      seq := ((s.setSeqResult q .pending).setSeqResult q (if failed = true then .failed else .ok)).seq
      syncBusyMask := (claimSync q s).syncBusyMask &&& ~~~(s.usedUnits q)
      job := m.job, dev := m.dev, lpspi := m.lpspi, mem := m.mem, freeCount := m.freeCount, trace := s.trace ++ es } = _
    rw [hseq, hmask]
    rfl
  rw [syncFinish_eq, hrelease, State.says, List.append_assoc s.trace es]
  rfl

theorem syncTransfer_undisturbed {s : State} {q n timeout : Nat} {ctx : Ctx} (hfit : Fit s) (hcalm : s.undisturbed = true)
    (hq : q < s.cfg.numSeqs) : syncTransfer (deliver n) ctx q timeout s = syncSeqGeneral (deliver n) ctx q timeout s :=
  syncTransfer_eq_general aboutInputs_undisturbed hfit rfl hq hcalm fun cur ctx' x y h hx => by
    rw [deliver_undisturbed hx.prop] at h
    cases h
    exact hx

/-- `SYNC_TRANSMIT` of an accepted sequence is the run of its jobs. -/
theorem exec_syncTransmit {s m : State} {k : BitVec 16} {q : Nat} {left : Option Nat} {es : List Entry} (hk : q = k.toNat)
    (h : SyncAccepted s q)
    (hrun : syncJobs (deliver s.inputs.length) .foreground (s.cfg.seqAt q).jobs (some s.params.timeoutCounter.toNat) (claimSync q s) =
      .ok (left, m)) (hm : OnlyJobs (claimSync q s) m (s.cfg.seqAt q).jobs es) :
    exec (.syncTransmit k) s = .next { s with
      seq := s.seq.set q { s.seqAt q with result := if left.isNone = true then .failed else .ok }
      job := m.job, dev := m.dev, lpspi := m.lpspi, mem := m.mem, freeCount := m.freeCount
      trace := s.trace ++ (es ++ s.syncTail q left.isNone) ++ [.rsp (if left.isNone = true then 1 else 0)] } := by
  have hcalm : m.undisturbed = true := hm.undisturbed h.calm
  have hfit : Fit (claimSync q s) := ⟨h.fit.wf, h.fit.init, h.fit.cache, h.fit.unit, h.fit.dev, h.fit.job,
    (tset_length _ _ _).trans h.fit.seq⟩
  have htransfer := syncTransfer_undisturbed (n := s.inputs.length) (timeout := s.params.timeoutCounter.toNat) (ctx := .foreground) hfit
    h.calm h.range
  have hhas : ¬ s.hasSync = false := by simp [State.hasSync, h.level]
  have hrange : ¬ s.seqInRange q = false := by simp [State.seqInRange, h.range]
  have hrun' : syncRun (deliver s.inputs.length) .foreground q (claimSync q s) = .ok (syncFinish q left.isNone
      (releaseSync q left.isNone m)) := by
    refine (congrArg (· >>= _) (htransfer.trans hrun)).trans ?_
    have hrelease : (releaseSync q left.isNone m).undisturbed = true := hcalm
    simp only [res_ok_bind, deliver_undisturbed hcalm, deliver_undisturbed hrelease]
  subst hk
  rw [show exec (.syncTransmit k) s = execSyncTransmit k s from rfl, execSyncTransmit, State.boundary, cmdSyncTransmit, if_neg hhas,
    if_neg (by simp [h.fit.init]), if_neg hrange, if_neg (by simp [h.sync]), deliver_undisturbed h.calm, res_ok_bind,
    if_neg (by simp [h.result, h.free]), hrun', finish_release h _ hm]
  rfl

/-- Settles O33: every job that can be transferred runs to its end, by induction on the jobs of the sequence. -/
theorem syncTransmitAlwaysEnds : Obligations.SyncTransmitAlwaysEnds := by
  unfold Obligations.SyncTransmitAlwaysEnds
  intro s k hcalm htables hlevel hinit hq hsync hresult hfree hready
  have hfit := fit_of_tablesOk htables hinit
  have haccepted : SyncAccepted s k.toNat := ⟨hfit, hcalm, hlevel, hq, hsync, hresult, hfree⟩
  have hcan : ∀ j ∈ (s.cfg.seqAt k.toNat).jobs, CanRun (claimSync k.toNat s) j := fun j hj => by
    have hlt := hfit.seqJob_lt hq hj
    have halone : Alone s (s.unitOf j) := .of_tablesOk htables hinit (hfit.unitOf_lt hlt) hcalm
    exact ⟨hready j hj, ⟨halone.dev, halone.lpspi, hcalm⟩, hfit.job_lt hlt, hfit.channelCount_le hlt⟩
  obtain ⟨left, m, es, hrun, hm, hok, hfailed⟩ := syncJobs_runs (s := claimSync k.toNat s) (n := s.inputs.length) (ctx := .foreground)
    (timeout := s.params.timeoutCounter.toNat) hcalm hcan
  refine ⟨_, left.isNone, es ++ s.syncTail k.toNat left.isNone, exec_syncTransmit rfl haccepted hrun hm, rfl, ?demTimeout, ?errors,
    fun hleft => ?allOk, fun hleft => ?oneFailed, hm.locks, hm.others, hm.units, fun x hx => ?bytes⟩
  case demTimeout =>
    rw [List.mem_append, demTimeout_mem_syncTail, or_iff_right fun hmem => hm.quiet.not_mem rfl hmem]
  case errors =>
    exact fun op e hmem => (List.mem_append.1 hmem).elim (hm.quiet.not_mem rfl) err_not_mem_syncTail
  case allOk => exact hok fun hnone => by rw [hnone] at hleft; cases hleft
  case oneFailed => exact hfailed (Option.isNone_iff_eq_none.1 hleft)
  case bytes => exact hm.bytes x hx

end Sys2Proof.Machine

/-! A synchronous transmit of one channel with room for its frames and the answers waiting (44_sync_transmit.md R305, R306, R308;
41_engine_fifo.md R214). -/

namespace Sys2Proof.Machine

/-! The register writes of a trace -/

theorem regWritesOf_append (es es' : List Entry) : regWritesOf (es ++ es') = regWritesOf es ++ regWritesOf es' := by
  induction es with
  | nil => rfl
  | cons e rest ih => cases e <;> simp only [List.cons_append, regWritesOf, ih]

theorem regWritesOf_regWrites (u : Nat) (ws : List RegWrite) : regWritesOf (ws.map (.regWrite u)) = ws.map (u, ·) := by
  induction ws with
  | nil => rfl
  | cons w rest ih => rw [List.map_cons, List.map_cons, regWritesOf, ih]

theorem regWritesOf_notice (on : Bool) (k : NotifKind) (i : Nat) : regWritesOf (notice on k i) = [] := by cases on <;> rfl

/-! The transmit buffer of a job stays what it is (20_memory.md R94; 93_implementation_defined.md U11) -/

/-- A job that can be transferred loads from no byte where it stores. -/
theorem outsideRx_of_mem_txSpan {s : State} {j c x : Nat} {a : Span} (hover : s.buffersOverlap j = false)
    (hc : c ∈ (s.cfg.jobAt j).channels) (ha : a ∈ s.txSpan c) (hx : a.start ≤ x ∧ x < a.start + a.bytes) : s.outsideRx c x := by
  intro b hb
  have hc' : c ∈ (s.cfg.jobAt j).channels.eraseDups := List.mem_eraseDups.2 hc
  simp only [State.buffersOverlap, Bool.or_eq_false_iff, List.any_eq_false] at hover
  obtain ⟨-, hapart⟩ := hover
  have hnone := hapart b (List.mem_flatMap.2 ⟨c, hc', hb⟩)
  rw [List.any_eq_true] at hnone
  have hne : ¬ rangesOverlap b.start b.bytes a.start a.bytes = true := fun h => hnone ⟨a, List.mem_flatMap.2 ⟨c, hc', ha⟩, h⟩
  rw [rangesOverlap_iff] at hne
  omega

/-- Storing a received frame leaves the frames to be sent as they are. -/
theorem txFrameValue_keepFrame {s : State} {j c i k : Nat} (hover : s.buffersOverlap j = false)
    (hc : c ∈ (s.cfg.jobAt j).channels) (hi : i < (s.chanAt c).length) (hk : k < (s.chanAt c).length) (v : Word) (m : Memory) :
    txFrameValue (s.setMem (s.keepFrame c i v m)) c (s.widthOf c) k = txFrameValue (s.setMem m) c (s.widthOf c) k := by
  by_cases hdefault : (s.chanAt c).useDefault = true ∨ (s.chanAt c).txPtr = none
  · exact (txFrameValue_default (s := s.setMem (s.keepFrame c i v m)) hdefault).trans
      (txFrameValue_default (s := s.setMem m) hdefault).symm
  · obtain ⟨huse, hptr⟩ := not_or.1 hdefault
    rw [Bool.not_eq_true] at huse
    obtain ⟨p, hptr⟩ := Option.ne_none_iff_exists'.1 hptr
    have hspan : (⟨p.toNat, s.bufBytes c⟩ : Span) ∈ s.txSpan c := by simp [State.txSpan, huse, hptr]
    have hmul : (k + 1) * bpf (s.widthOf c) ≤ s.bufBytes c := Nat.mul_le_mul_right _ hk
    rw [Nat.succ_mul] at hmul
    have hread : memRead (s.keepFrame c i v m) (frameAddr p (s.widthOf c) k) (bpf (s.widthOf c)) =
        memRead m (frameAddr p (s.widthOf c) k) (bpf (s.widthOf c)) := memRead_congr fun x hx =>
      readByte_keepFrame_outside (outsideFrame_of_outsideRx (outsideRx_of_mem_txSpan hover hc hspan (by
        unfold frameAddr; simp only; omega)) hi) v m
    refine (txFrameValue_load (s := s.setMem (s.keepFrame c i v m)) huse hptr hk).trans
      (.trans ?_ (txFrameValue_load (s := s.setMem m) huse hptr hk).symm)
    rw [loadBytes, loadBytes, setMem_mem, setMem_mem, hread]

/-! One frame out and one frame in (R306, R308) -/

/-- The record after a frame of the last channel of a job: after its last frame chip select is cleared. -/
def Dev.frameSent (d : Dev) : Dev := if d.txRemaining = 1 then (d.sent 1).csCleared else d.sent 1

/-- The register writes of a frame of the last channel of a job. -/
def Dev.frameWrites (d : Dev) (v : Word) : List RegWrite := .txdata v :: if d.txRemaining = 1 then d.clearWrites else []

theorem frameWrites_spareRx {d : Dev} {v : Word} : ∀ w ∈ d.frameWrites v, w.sparesRx = true := by
  refine List.forall_mem_cons.2 ⟨rfl, ?_⟩
  split
  · exact clearWrites_spareRx
  · nofun

theorem frameSent_rxRemaining (d : Dev) : d.frameSent.rxRemaining = d.rxRemaining := by
  unfold Dev.frameSent
  split <;> rfl

section
variable {s : State} {u c : Nat} {m : Memory} {d : Dev} {p : Lpspi} {es : List Entry} {v : Word} (h : Alone s u)
  (hready : s.chanReady c = true) (hleft : 0 < d.txRemaining) (hcount : d.txRemaining + d.sentFrames = (s.chanAt c).length)
  (hroom : p.txCount < s.params.fifoSize)
  (hv : txFrameValue (s.setMem m) c (s.widthOf c) ((s.chanAt c).length - d.txRemaining) = .ok v)
include h hready hleft hcount hroom hv

/-- A frame that goes out with room for it. -/
theorem syncSend_room : syncSend u c (s.widthOf c) true p.txCount (s.onUnit u m d p es) =
    .ok (s.onUnit u m d.frameSent (p.writes s.params.fifoSize s.freeCount (d.frameWrites v))
      (es ++ (d.frameWrites v).map (.regWrite u))) := by
  obtain ⟨-, hmax, -⟩ := chanReady_iff.1 hready
  rw [syncSend, devAt_onUnit h, onUnit_params, if_pos ⟨hleft, hroom⟩, sendFrame_onUnit h hleft (by omega) hroom hv, res_ok_bind,
    devAt_onUnit h]
  by_cases hone : d.txRemaining = 1
  · have hzero : (d.sent 1).txRemaining = 0 := by simp only [Dev.sent, hone]
    rw [if_pos ⟨hzero, rfl⟩, clearContCS_eq h, List.append_assoc, Dev.frameSent, Dev.frameWrites, if_pos hone, if_pos hone]
    rfl
  · have hsome : (d.sent 1).txRemaining ≠ 0 := by simp only [Dev.sent]; omega
    rw [if_neg fun hend => hsome hend.1, Dev.frameSent, Dev.frameWrites, if_neg hone, if_neg hone]
    rfl

/-- A pass that sends a frame, and receives one that waits. -/
theorem syncPass_swap {w : Word} {rest : List Word} (hboth : d.rxRemaining = d.txRemaining) (hfifo : p.rxFifo = w :: rest) :
    ∃ es', syncPass u c (s.widthOf c) true (s.onUnit u m d p es) =
        .ok (s.onUnit u (s.keepFrame c ((s.chanAt c).length - d.rxRemaining) w m) (d.frameSent.received 1)
          { p.writes s.params.fifoSize s.freeCount (d.frameWrites v) with rxFifo := rest } (es ++ es')) ∧
      regWritesOf es' = (d.frameWrites v).map (u, ·) := by
  have hrx := frameSent_rxRemaining d
  have hwaits : p.rxCount ≠ 0 := by rw [Lpspi.rxCount, hfifo]; exact Nat.succ_ne_zero _
  refine ⟨[.regRead u (.fifostat p.txCount p.rxCount)] ++ (d.frameWrites v).map (.regWrite u) ++ [.regRead u (.rxdata w)], ?_, ?_⟩
  · rw [syncPass, readFifoStat_onUnit h, res_ok_bind]
    simp only [syncSend_room h hready hleft hcount hroom hv, res_ok_bind]
    rw [syncReceive, devAt_onUnit h, hrx, if_pos ⟨by omega, Nat.pos_of_ne_zero hwaits⟩,
      receiveFrame_onUnit h (by omega) ((writes_rxFifo frameWrites_spareRx).trans hfifo) hready (by omega), hrx]
    simp only [List.append_assoc]
  · rw [regWritesOf_append, regWritesOf_append, regWritesOf_regWrites]
    simp [regWritesOf]

end

/-! All the frames of a channel (R306, R308) -/

/-- The register writes of all the frames `f` of the last channel of a job. -/
def Dev.framesWrites (d : Dev) (f : List Word) : List RegWrite := f.map .txdata ++ d.clearWrites

/-- The record after `n` frames, all of the last channel of a job, were sent and received. -/
def Dev.swapped (d : Dev) (n : Nat) : Dev := ((d.sent n).received n).csCleared

theorem framesWrites_spareRx {d : Dev} {f : List Word} : ∀ w ∈ d.framesWrites f, w.sparesRx = true :=
  List.forall_mem_append.2 ⟨List.forall_mem_map.2 fun _ _ => rfl, clearWrites_spareRx⟩

theorem swapped_succ (d : Dev) (n : Nat) : ((d.sent 1).received 1).swapped n = d.swapped (n + 1) := by
  simp only [Dev.swapped, Dev.sent, Dev.received, Nat.sub_sub, Nat.add_assoc, Nat.add_comm 1 n]

/-- With all frames moved the passes are over. -/
theorem syncPasses_over {b : Boundary} {ctx : Ctx} {u c n : Nat} {w : Width} {last : Bool} {s : State} (hleft : syncLeft u s ≠ true) :
    syncPasses b ctx u c w last n s = .ok (some n, s) := by
  cases n <;> rw [syncPasses, if_neg hleft]

/-- Channel `c` has the frames `f` left to send, with room for them, and their answers `r` wait. -/
structure Swappable (s : State) (c : Nat) (m : Memory) (d : Dev) (p : Lpspi) (f r rest : List Word) : Prop where
  tx : d.txRemaining = f.length
  rx : d.rxRemaining = f.length
  answers : r.length = f.length
  count : d.txRemaining + d.sentFrames = (s.chanAt c).length
  fifo : p.rxFifo = r ++ rest
  room : p.txCount + f.length ≤ s.params.fifoSize
  values : ∀ k (hk : k < f.length), txFrameValue (s.setMem m) c (s.widthOf c) ((s.chanAt c).length - d.txRemaining + k) = .ok f[k]

/-- The memory, the record and the peripheral after a frame before the last one. -/
theorem Swappable.step {s : State} {c j : Nat} {m : Memory} {d : Dev} {p : Lpspi} {f r rest : List Word} {v w : Word}
    (hover : s.buffersOverlap j = false) (hc : c ∈ (s.cfg.jobAt j).channels) (h : Swappable s c m d p (v :: f) (w :: r) rest) :
    Swappable s c (s.keepFrame c ((s.chanAt c).length - d.rxRemaining) w m) ((d.sent 1).received 1)
      { p.writes s.params.fifoSize s.freeCount [.txdata v] with rxFifo := r ++ rest } f r rest := by
  obtain ⟨htx, hrx, hanswers, hcount, hfifo, hroom, hvalues⟩ := h
  rw [List.length_cons] at htx hrx hroom
  have hleft : ((d.sent 1).received 1).txRemaining = f.length := by simp only [Dev.received, Dev.sent]; omega
  refine ⟨hleft, ?rx, Nat.succ.inj hanswers, ?count, rfl, ?room, fun k hk => ?values⟩
  case rx => simp only [Dev.received, Dev.sent]; omega
  case count => simp only [Dev.received, Dev.sent]; omega
  case room =>
    have hone := txCount_writes_txdata (fifoSize := s.params.fifoSize) (free := s.freeCount) (p := p) (n := 1) (fun _ => v) (by omega)
    show (p.writes s.params.fifoSize s.freeCount [.txdata v]).txCount + f.length ≤ _
    rw [show [RegWrite.txdata v] = (List.range 1).map fun _ => .txdata v from rfl, hone]
    omega
  case values =>
    have hk' := hvalues (k + 1) (Nat.succ_lt_succ hk)
    rw [hleft, txFrameValue_keepFrame hover hc (by omega) (by omega)]
    rw [show (s.chanAt c).length - d.txRemaining + (k + 1) = (s.chanAt c).length - f.length + k by omega] at hk'
    exact hk'

section
variable {s : State} {u c j : Nat} (h : Alone s u) (hready : s.chanReady c = true) {b : Boundary}
  (hb : ∀ ctx x, x.undisturbed = true → b ctx x = .ok x) {ctx : Ctx}
include h hready hb

/-- The next pass. -/
theorem syncPasses_next {m : Memory} {d : Dev} {p : Lpspi} {es : List Entry} {f r rest : List Word} {v w : Word} (n : Nat)
    (hd : Swappable s c m d p (v :: f) (w :: r) rest) : ∃ es', regWritesOf es' = (d.frameWrites v).map (u, ·) ∧
      syncPasses b ctx u c (s.widthOf c) true (n + 1) (s.onUnit u m d p es) = syncPasses b ctx u c (s.widthOf c) true n
        (s.onUnit u (s.keepFrame c ((s.chanAt c).length - d.rxRemaining) w m) (d.frameSent.received 1)
          { p.writes s.params.fifoSize s.freeCount (d.frameWrites v) with rxFifo := r ++ rest } (es ++ es')) := by
  have hpos : 0 < d.txRemaining := by rw [hd.tx]; exact Nat.succ_pos _
  have hroom : p.txCount < s.params.fifoSize := by have hroom := hd.room; rw [List.length_cons] at hroom; omega
  have hmore : syncLeft u (s.onUnit u m d p es) = true := (syncLeft_onUnit h).2 fun hnone => hpos.ne' hnone.1
  obtain ⟨es', hpass, hwrites⟩ := syncPass_swap (es := es) (v := v) h hready hpos hd.count hroom (hd.values 0 (Nat.succ_pos _))
    (hd.rx.trans hd.tx.symm) hd.fifo
  refine ⟨es', hwrites, ?_⟩
  rw [syncPasses, if_pos hmore, hb ctx _ h.onUnit]
  simp only [hpass]
  rfl

/-- The passes of a channel with room for all its frames and the answers waiting. -/
theorem syncPasses_swap {m : Memory} {d : Dev} {p : Lpspi} {es : List Entry} {f r rest : List Word} {n : Nat}
    (hover : s.buffersOverlap j = false) (hc : c ∈ (s.cfg.jobAt j).channels) (hsome : f ≠ []) (hn : f.length ≤ n)
    (hd : Swappable s c m d p f r rest) :
    ∃ es', syncPasses b ctx u c (s.widthOf c) true n (s.onUnit u m d p es) = .ok (some (n - f.length),
        s.onUnit u (s.keepFrames c ((s.chanAt c).length - d.rxRemaining) r m) (d.swapped f.length)
          { p.writes s.params.fifoSize s.freeCount (d.framesWrites f) with rxFifo := rest } (es ++ es')) ∧
      regWritesOf es' = (d.framesWrites f).map (u, ·) := by
  induction f generalizing m d p es r n with
  | nil => exact absurd rfl hsome
  | cons v f ih =>
    obtain ⟨w, r, rfl⟩ := List.exists_cons_of_length_pos (l := r) (by rw [hd.answers]; exact Nat.succ_pos _)
    obtain ⟨n, rfl⟩ := Nat.exists_eq_succ_of_ne_zero (show n ≠ 0 by rw [List.length_cons] at hn; omega)
    obtain ⟨es1, hwrites, hnext⟩ := syncPasses_next (es := es) (ctx := ctx) h hready hb n hd
    rw [hnext]
    cases f with
    | nil =>
      obtain rfl : r = [] := List.length_eq_zero_iff.1 (Nat.succ.inj hd.answers)
      have hone : d.txRemaining = 1 := hd.tx
      have hrecord : d.frameSent.received 1 = d.swapped 1 := by rw [Dev.frameSent, if_pos hone]; rfl
      have hall : d.frameWrites v = d.framesWrites [v] := by rw [Dev.frameWrites, if_pos hone]; rfl
      rw [hrecord, hall]
      refine ⟨es1, syncPasses_over fun hleft => (syncLeft_onUnit h).1 hleft ⟨?_, ?_⟩, by rw [hwrites, hall]⟩
      · simp only [Dev.swapped, Dev.csCleared, Dev.received, Dev.sent, hone]
      · simp only [Dev.swapped, Dev.csCleared, Dev.received, Dev.sent, hd.rx, List.length_cons, List.length_nil]
    | cons v' f =>
      have hne : d.txRemaining ≠ 1 := by rw [hd.tx]; simp
      have hsent : d.frameSent = d.sent 1 := if_neg hne
      have hwrite : d.frameWrites v = [.txdata v] := by rw [Dev.frameWrites, if_neg hne]
      rw [hsent, hwrite]
      obtain ⟨es2, hrun, hrest⟩ := ih (es := es ++ es1) (n := n) (List.cons_ne_nil _ _) (Nat.le_of_succ_le_succ hn) (hd.step hover hc)
      refine ⟨es1 ++ es2, hrun.trans ?_, ?_⟩
      · have hidx : (s.chanAt c).length - ((d.sent 1).received 1).rxRemaining = (s.chanAt c).length - d.rxRemaining + 1 := by
          have hle : d.rxRemaining ≤ (s.chanAt c).length := by have hcount := hd.count; rw [hd.tx] at hcount; rw [hd.rx]; omega
          have hpos : 0 < d.rxRemaining := by rw [hd.rx]; exact Nat.succ_pos _
          simp only [Dev.received, Dev.sent]
          omega
        rw [swapped_succ, hidx, writes_withRx framesWrites_spareRx, List.append_assoc, List.length_cons (a := v),
          Nat.succ_sub_succ n]
        rfl
      · rw [regWritesOf_append, hwrites, hwrite, hrest]
        rfl

end

/-! The job and the command (R303, R305, R306) -/

/-- The register writes of a job with the one channel `c` and the frames `f` (41_engine_fifo.md R211, R214, R217, R226). -/
def State.oneChannelWrites (s : State) (j c : Nat) (f : List Word) : List RegWrite :=
  [.clkcfg (s.cfg.jobAt j).dev.clockTiming, .fifoctrl (s.cfg.channelAt c).wmTx (s.cfg.channelAt c).wmRx,
      .txcmd (chanCmd s.cfg j c (s.cfg.jobAt j).dev.contCS)] ++ f.map .txdata ++
    if (s.cfg.jobAt j).dev.contCS = true then [.txcmd (chanCmd s.cfg j c false)] else []

/-- The record of the unit after such a job. -/
def Dev.oneChannelDone (d : Dev) (s : State) (j c : Nat) : Dev :=
  { d with
    cmdWord := chanCmd s.cfg j c false, curJob := none, txChanIdx := 0, rxChanIdx := 0, txRemaining := 0, rxRemaining := 0
    sentFrames := (s.chanAt c).length, txDone := true, rxDone := true, contCSActive := false }

theorem oneChannelWrites_eq (s : State) (j c : Nat) (f : List Word) (d : Dev) :
    .clkcfg (s.cfg.jobAt j).dev.clockTiming :: (s.chanStartWrites j c ++ (d.chanStart s j c).framesWrites f) =
      s.oneChannelWrites j c f := by
  have hclear : (d.chanStart s j c).clearWrites =
      if (s.cfg.jobAt j).dev.contCS = true then [.txcmd (chanCmd s.cfg j c false)] else [] := rfl
  rw [Dev.framesWrites, hclear, State.oneChannelWrites, State.chanStartWrites]
  simp only [List.cons_append, List.nil_append]

/-- A job with one channel, with room for its frames and the answers waiting. -/
structure OneChannel (s : State) (u j c : Nat) (f : List Word) : Prop where
  unit : u = s.unitOf j
  alone : Alone s u
  channels : (s.cfg.jobAt j).channels = [c]
  ready : s.jobReady j = true
  frames : f.length = (s.chanAt c).length
  answers : f.length ≤ (s.lpspiAt u).rxFifo.length
  room : (s.lpspiAt u).txCount + f.length ≤ s.params.fifoSize
  values : ∀ k (hk : k < f.length), txFrameValue s c (s.widthOf c) k = .ok f[k]

section
variable {s : State} {u j c : Nat} {f : List Word} (h : OneChannel s u j c f) {b : Boundary}
  (hb : ∀ ctx x, x.undisturbed = true → b ctx x = .ok x) {ctx : Ctx}
include h

theorem OneChannel.chanReady : s.chanReady c = true := by
  obtain ⟨-, -, hall⟩ := jobReady_iff.1 h.ready
  exact hall c (by rw [h.channels]; exact List.mem_singleton_self c)

theorem OneChannel.record (d : Dev) :
    (((d.syncEntered j).chanStart s j c).swapped f.length).syncLeft = d.oneChannelDone s j c := by
  have hword : (if (s.cfg.jobAt j).dev.contCS = true then { chanCmd s.cfg j c (s.cfg.jobAt j).dev.contCS with cont := false }
      else chanCmd s.cfg j c (s.cfg.jobAt j).dev.contCS) = chanCmd s.cfg j c false := by
    cases (s.cfg.jobAt j).dev.contCS <;> rfl
  simp [Dev.syncLeft, Dev.swapped, Dev.csCleared, Dev.received, Dev.sent, Dev.chanStart, Dev.atIdx, Dev.syncEntered, Dev.oneChannelDone,
    hword, h.frames]

/-- The start of the channel leaves its frames to be sent, with room for them, and the answers waiting. -/
theorem OneChannel.swappable (d : Dev) : Swappable s c s.mem (d.chanStart s j c)
    (((s.lpspiAt u).write s.params.fifoSize s.freeCount (.clkcfg (s.cfg.jobAt j).dev.clockTiming)).writes s.params.fifoSize s.freeCount
      (s.chanStartWrites j c)) f ((s.lpspiAt u).rxFifo.take f.length) ((s.lpspiAt u).rxFifo.drop f.length) where
  tx := h.frames.symm
  rx := h.frames.symm
  answers := by rw [List.length_take, Nat.min_eq_left h.answers]
  count := rfl
  fifo := by
    rw [List.take_append_drop]
    exact writes_rxFifo (ws := .clkcfg _ :: s.chanStartWrites j c) (by simp [State.chanStartWrites, RegWrite.sparesRx])
  room := (congrArg (· + f.length) (txCount_write_txcmd (fifoSize := s.params.fifoSize) (free := s.freeCount) _)).trans_le h.room
  values k hk := by
    have hstart : (s.chanAt c).length - (d.chanStart s j c).txRemaining + k = k := by
      show (s.chanAt c).length - (s.chanAt c).length + k = k
      omega
    rw [hstart]
    exact h.values k hk

include hb

/-- What such a job does. -/
theorem OneChannel.syncJobTransfer {n : Nat} (hn : f.length ≤ n) : ∃ es, regWritesOf es = (s.oneChannelWrites j c f).map (u, ·) ∧
    syncJobTransfer b ctx j n s = .ok (some (n - f.length),
      s.onUnit u (s.keepFrames c 0 ((s.lpspiAt u).rxFifo.take f.length) s.mem) ((s.devAt u).oneChannelDone s j c)
        { (s.lpspiAt u).writes s.params.fifoSize s.freeCount (s.oneChannelWrites j c f) with
          rxFifo := (s.lpspiAt u).rxFifo.drop f.length } es) := by
  obtain ⟨-, hover, -⟩ := jobReady_iff.1 h.ready
  obtain ⟨hlen, -⟩ := chanReady_iff.1 h.chanReady
  have hc : c = s.chanOf j 0 := by rw [State.chanOf, h.channels]; rfl
  have hmem : c ∈ (s.cfg.jobAt j).channels := by rw [h.channels]; exact List.mem_singleton_self c
  have hsome : f ≠ [] := fun hnil => by have hframes := h.frames; rw [hnil, List.length_nil] at hframes; omega
  have hd := h.swappable ((s.devAt u).syncEntered j)
  obtain ⟨es, hpasses, hwrites⟩ := syncPasses_swap (ctx := ctx) (n := n)
    (es := [.regWrite u (.clkcfg (s.cfg.jobAt j).dev.clockTiming)] ++ (s.chanStartWrites j c).map (.regWrite u))
    h.alone h.chanReady hb hover hmem hsome hn hd
  have hidx : (s.chanAt c).length - (((s.devAt u).syncEntered j).chanStart s j c).rxRemaining = 0 := Nat.sub_self _
  have hall := oneChannelWrites_eq s j c f ((s.devAt u).syncEntered j)
  refine ⟨[.regWrite u (.clkcfg (s.cfg.jobAt j).dev.clockTiming)] ++ (s.chanStartWrites j c).map (.regWrite u) ++ es, ?writes, ?run⟩
  case writes =>
    rw [regWritesOf_append, regWritesOf_append, regWritesOf_regWrites, hwrites, ← hall, List.append_assoc, ← List.map_append]
    rfl
  case run =>
    have hwritten : (s.lpspiAt u).writes s.params.fifoSize s.freeCount (s.oneChannelWrites j c f) =
        (((s.lpspiAt u).write s.params.fifoSize s.freeCount (.clkcfg (s.cfg.jobAt j).dev.clockTiming)).writes s.params.fifoSize
          s.freeCount (s.chanStartWrites j c)).writes s.params.fifoSize s.freeCount
            ((((s.devAt u).syncEntered j).chanStart s j c).framesWrites f) := by
      rw [← hall]
      exact writes_append _ _ _
    rw [syncJobTransfer_eq h.alone hb h.unit hover, h.channels, syncChannels_cons, startChannel_first h.alone rfl hc hlen, res_ok_bind,
      onUnit_widthOf, List.isEmpty_nil, hpasses, res_ok_bind, hidx]
    simp only [syncChannels, res_ok_bind, syncJobEnd, leaveSyncJob_onUnit h.alone, h.record, hwritten]

omit hb in
/-- Results and notifications of jobs do not matter to it. -/
theorem OneChannel.ofJob (js : List JobState) (es : List Entry) : OneChannel { s with job := js, trace := es } u j c f :=
  ⟨h.unit, ⟨h.alone.dev, h.alone.lpspi, h.alone.calm⟩, h.channels, h.ready, h.frames, h.answers, h.room, h.values⟩

end

theorem keepFrames_afterBegin (s : State) (js : List JobState) (es : List Entry) (c i : Nat) (vs : List Word) (m : Memory) :
    State.keepFrames { s with job := js, trace := es } c i vs m = s.keepFrames c i vs m := by
  induction vs generalizing i m with
  | nil => rfl
  | cons v vs ih => exact ih _ _

theorem onUnit_afterBegin (s : State) (u : Nat) (js : List JobState) (m : Memory) (d : Dev) (p : Lpspi) (es es' : List Entry) :
    State.onUnit { s with job := js, trace := s.trace ++ es } u m d p es' = { s.onUnit u m d p (es ++ es') with job := js } := by
  simp only [State.onUnit, List.append_assoc]

/-- The end of a job that was begun. -/
theorem syncResult_onUnit {s : State} {j : Nat} (hj : j < s.job.length) (u : Nat) (m : Memory) (d : Dev) (p : Lpspi) (es : List Entry)
    (r : JobResult) : syncResult j r { s.onUnit u m d p es with job := (s.setJobResult j .pending).job } =
      { s.onUnit u m d p (es ++ notice (s.cfg.jobAt j).endNotif .jobEnd j) with job := s.job.set j { s.jobAt j with result := r } } := by
  rw [syncResult_eq]
  show { s.onUnit u m d p es with
    job := ((s.setJobResult j .pending).setJobResult j r).job
    trace := s.trace ++ es ++ notice (s.cfg.jobAt j).endNotif .jobEnd j } = _
  rw [setJobResult_setJobResult hj, List.append_assoc]
  rfl

/-- The jobs of a sequence with one such job. -/
theorem OneChannel.syncJobs {s : State} {u j c : Nat} {f : List Word} (h : OneChannel s u j c f) {b : Boundary}
    (hb : ∀ ctx x, x.undisturbed = true → b ctx x = .ok x) {ctx : Ctx} {n : Nat} (hn : f.length ≤ n) (hj : j < s.job.length) :
    ∃ es, regWritesOf es = (s.oneChannelWrites j c f).map (u, ·) ∧ syncJobs b ctx [j] (some n) s = .ok (some (n - f.length),
      { s.onUnit u (s.keepFrames c 0 ((s.lpspiAt u).rxFifo.take f.length) s.mem) ((s.devAt u).oneChannelDone s j c)
          { (s.lpspiAt u).writes s.params.fifoSize s.freeCount (s.oneChannelWrites j c f) with
            rxFifo := (s.lpspiAt u).rxFifo.drop f.length } es with
        job := s.job.set j { s.jobAt j with result := .ok } }) := by
  have hbegin : syncJobBegin j s = { s with
      job := (s.setJobResult j .pending).job, trace := s.trace ++ notice (s.cfg.jobAt j).startNotif .jobStart j } := notify_eq _ _ _ _
  have h1 := h.ofJob (s.setJobResult j .pending).job (s.trace ++ notice (s.cfg.jobAt j).startNotif .jobStart j)
  obtain ⟨es, hwrites, hrun⟩ := h1.syncJobTransfer hb (ctx := ctx) hn
  refine ⟨notice (s.cfg.jobAt j).startNotif .jobStart j ++ es ++ notice (s.cfg.jobAt j).endNotif .jobEnd j, ?writes, ?run⟩
  case writes =>
    rw [regWritesOf_append, regWritesOf_append, regWritesOf_notice, regWritesOf_notice, List.nil_append, List.append_nil]
    exact hwrites
  case run =>
    rw [onUnit_afterBegin, keepFrames_afterBegin] at hrun
    rw [Machine.syncJobs, hb ctx s h.alone.calm, res_ok_bind, hbegin, hrun]
    simp only [res_ok_bind]
    rw [hb ctx _ (by exact h.alone.calm), res_ok_bind, syncVerdict, syncResult_onUnit hj]
    rfl

/-- Without a failure nothing more is written. -/
theorem regWritesOf_syncTail (s : State) (q : Nat) : regWritesOf (s.syncTail q false) = [] := by
  rw [State.syncTail, regWritesOf_append, regWritesOf_notice]
  rfl

/-- Settles O34: every pass sends a frame and receives its answer, by induction on the frames. -/
theorem syncTransmitSucceeds : Obligations.SyncTransmitSucceeds := by
  unfold Obligations.SyncTransmitSucceeds
  intro s k u j c vs ws hcalm htables hmem hlevel hinit hq hsync hresult hfree hjobs hchannels hu hready hanswers hroom htimeout hvs hws
  have hfit := fit_of_tablesOk htables hinit
  have haccepted : SyncAccepted s k.toNat := ⟨hfit, hcalm, hlevel, hq, hsync, hresult, hfree⟩
  have hlt : j < s.cfg.numJobs := hfit.seqJob_lt hq (hjobs ▸ List.mem_cons_self)
  have halone : Alone s u := .of_tablesOk htables hinit (hu ▸ hfit.unitOf_lt hlt) hcalm
  have hframes : ((List.range (s.chanAt c).length).map vs).length = (s.chanAt c).length := by rw [List.length_map, List.length_range]
  have hone : OneChannel (claimSync k.toNat s) u j c ((List.range (s.chanAt c).length).map vs) := by
    refine ⟨hu, ⟨halone.dev, halone.lpspi, hcalm⟩, hchannels, hready, hframes, hframes.trans_le hanswers,
      (congrArg _ hframes).trans_le hroom, fun i hi => ?_⟩
    rw [List.getElem_map, List.getElem_range]
    exact hvs i (hframes ▸ hi)
  have hwrites : (claimSync k.toNat s).oneChannelWrites j c ((List.range (s.chanAt c).length).map vs) = ws := by
    rw [hws, State.oneChannelWrites, List.map_map]
    rfl
  obtain ⟨es, hes, hrun⟩ := hone.syncJobs (b := deliver s.inputs.length) (fun ctx x hx => deliver_undisturbed hx _ ctx)
    (ctx := .foreground) (n := s.params.timeoutCounter.toNat) (hframes.trans_le htimeout) (hfit.job_lt hlt)
  obtain ⟨left, m, es', hruns, hm, -⟩ := syncJobs_runs (s := claimSync k.toNat s) (n := s.inputs.length) (ctx := .foreground)
    (jobs := [j]) (timeout := s.params.timeoutCounter.toNat) hcalm fun i hi => by
      rw [List.mem_singleton.1 hi]
      exact ⟨hready, ⟨hu ▸ halone.dev, hu ▸ halone.lpspi, hcalm⟩, hfit.job_lt hlt, hfit.channelCount_le hlt⟩
  obtain ⟨rfl, rfl⟩ := Prod.mk.inj (Except.ok.inj (hrun.symm.trans hruns))
  obtain rfl : es = es' := List.append_cancel_left (congrArg State.trace hm.frame)
  rw [hframes] at hrun hm
  have hexec := exec_syncTransmit rfl haccepted (hjobs ▸ hrun) (hjobs ▸ hm)
  rw [hwrites] at hexec hes
  refine ⟨_, es ++ s.syncTail k.toNat false, hexec, ?frame, ?writes, fun i p hi hdiscard hptr => ?received, fun x hx => ?outside⟩
  case frame => rfl
  case writes => rw [regWritesOf_append, regWritesOf_syncTail, List.append_nil, hes]
  case received =>
    have hlen : i < ((s.lpspiAt u).rxFifo.take (s.chanAt c).length).length := by rw [List.length_take]; omega
    have hread := memRead_keepFrames (s := claimSync k.toNat s) (i := 0) hmem hdiscard hptr hlen
    rw [Nat.zero_add, List.getD_eq_getElem?_getD, List.getElem?_take_of_lt hi, ← List.getD_eq_getElem?_getD] at hread
    exact hread
  case outside =>
    exact readByte_keepFrames_outside (s := claimSync k.toNat s) fun i hi =>
      outsideFrame_of_outsideRx hx (by rw [List.length_take] at hi; show 0 + i < (s.chanAt c).length; omega)

end Sys2Proof.Machine

/-! SUPPORT and PROOFS of the scheduler family (45_scheduler.md), the locks: `LockJobs` locks every job of a sequence or none, and what
a transmit command that meets a lock answers. -/

namespace Sys2Proof.Machine

/-! `LockJobs` on any table (R331, R333, R334): an id past the end of the table has no entry to lock -/

theorem setJobOwner_out {s : State} {j : Nat} (hj : ¬ j < s.job.length) (o : Option Nat) : s.setJobOwner j o = s :=
  congrArg (fun js => { s with job := js }) (List.set_eq_of_length_le (Nat.le_of_not_lt hj))

theorem owner_out {s : State} {j : Nat} (hj : ¬ j < s.job.length) : (s.jobAt j).owner = none := by
  rw [State.jobAt, tget_out _ _ (Nat.le_of_not_lt hj)]
  rfl

theorem unlockAll_inTable {n : Nat} {l : List Nat} {s : State} (hn : s.job.length = n) :
    unlockAll l s = unlockAll (l.filter (· < n)) s := by
  induction l generalizing s with
  | nil => rfl
  | cons j rest ih =>
    by_cases hj : j < n
    · rw [List.filter_cons_of_pos (by simpa using hj), unlockAll, unlockAll, ih (by simpa using hn)]
    · rw [List.filter_cons_of_neg (by simpa using hj), unlockAll, setJobOwner_out (hn ▸ hj), ih hn]

/-- The loop of `LockJobs` acts on the jobs that the table has. -/
theorem lockFrom_inTable {q n : Nat} {locked l : List Nat} {s : State} (hn : s.job.length = n) :
    lockFrom q locked l s = lockFrom q (locked.filter (· < n)) (l.filter (· < n)) s := by
  induction l generalizing locked s with
  | nil => rfl
  | cons j rest ih =>
    by_cases hj : j < n
    · rw [List.filter_cons_of_pos (by simpa using hj), lockFrom, lockFrom, unlockAll_inTable hn, ih (by simpa using hn),
        List.filter_append, List.filter_cons_of_pos (by simpa using hj), List.filter_nil]
    · have hout : ¬ j < s.job.length := hn ▸ hj
      have hfree : ¬ (s.jobAt j).owner.isSome = true := by simp [owner_out hout]
      rw [List.filter_cons_of_neg (by simpa using hj), lockFrom, if_neg hfree, setJobOwner_out hout, ih hn, List.filter_append,
        List.filter_cons_of_neg (by simpa using hj), List.filter_nil, List.append_nil]

/-- The single-compare path of R332 is the loop on one job. -/
theorem lockJobs_eq_lockFrom {s : State} {q : Nat} (hresult : (s.seqAt q).result ≠ .pending) :
    lockJobs q s = lockFrom q [] (s.cfg.seqAt q).jobs s := by
  rw [lockJobs, if_neg hresult]
  split
  next j hjobs => rw [hjobs]; rfl
  next => rfl

theorem LockedBy.jobAt {s t : State} {q : Nat} {l : List Nat} (h : LockedBy s t q l) (i : Nat) :
    t.jobAt i = if i ∈ l then { s.jobAt i with owner := some q } else s.jobAt i := by
  have hall := jobState_eq_withOwner (h.next i) (h.result i) (h.owner i)
  split at hall
  next hi => rw [if_pos hi]; exact hall
  next hi => rw [if_neg hi]; exact hall

/-- `LockJobs` changes nothing, or locks the jobs of the sequence that the table has, which were free. -/
theorem lockJobs_inTable (s : State) (q : Nat) : lockJobs q s = (false, s) ∨
    ∃ m, lockJobs q s = (true, m) ∧ (s.seqAt q).result ≠ .pending ∧
      LockedBy s m q ((s.cfg.seqAt q).jobs.filter (· < s.job.length)) ∧
      ∀ j ∈ (s.cfg.seqAt q).jobs.filter (· < s.job.length), (s.jobAt j).owner = none := by
  by_cases hresult : (s.seqAt q).result = .pending
  · exact .inl (if_pos hresult)
  · rw [lockJobs_eq_lockFrom hresult, lockFrom_inTable rfl]
    obtain hno | ⟨m, hm, hlocked, -, hfree⟩ := lockFrom_spec (l := (s.cfg.seqAt q).jobs.filter (· < s.job.length))
      (LockedBy.nil s q) (fun j hj => by simpa using (List.mem_filter.1 hj).2) List.nodup_nil nofun
    · exact .inl hno
    · exact .inr ⟨m, hm, hresult, hlocked, hfree⟩

/-- Settles O38: the two outcomes of `LockJobs` on the jobs that the table has. -/
theorem lockJobsAllOrNothing : Obligations.LockJobsAllOrNothing := by
  unfold Obligations.LockJobsAllOrNothing
  intro s q
  obtain hno | ⟨m, hm, hresult, hlocked, hfree⟩ := lockJobs_inTable s q
  · rw [hno]; exact ⟨fun _ => rfl, nofun⟩
  · rw [hm]
    have hmem : ∀ {j}, j ∈ (s.cfg.seqAt q).jobs.filter (· < s.job.length) ↔ j ∈ (s.cfg.seqAt q).jobs ∧ j < s.job.length := by simp
    refine ⟨nofun, fun _ => ⟨hresult, ?_, fun j hj hlt => ?_, fun j hj => ?_⟩⟩
    · obtain ⟨js, rfl⟩ := hlocked.frame; rfl
    · have hin := hmem.2 ⟨hj, hlt⟩
      exact ⟨hfree j hin, (hlocked.jobAt j).trans (if_pos hin)⟩
    · exact (hlocked.jobAt j).trans (if_neg fun hin => hj (hmem.1 hin).1)

/-! The concurrency rejections (60_exceptions.md R401) -/

section
variable {s : State} {q : Nat} {ctx : Ctx} (hcalm : s.undisturbed = true) (hinit : s.drvInit = true) (hq : q < s.cfg.numSeqs)
include hcalm hinit hq

/-- An asynchronous transmit whose sequence cannot be locked. -/
theorem cmdAsyncTransmit_locked {n : Nat} (hlevel : s.params.level ≠ .syncOnly) (hsync : s.seqIsSync q = false)
    (hlock : tryLock ctx q s = (false, s)) :
    cmdAsyncTransmit (deliver n) ctx q s = .ok (s.says (s.errors 0x07 .seqPending) 1) := by
  simp [cmdAsyncTransmit, hasAsync_of_ne_syncOnly hlevel, hinit, State.seqInRange, hq, hsync, hcalm, hlock, fail_eq_says, eNotOk]

/-- A synchronous transmit of a `PENDING` sequence, or on units that are claimed. -/
theorem cmdSyncTransmit_claimed {n : Nat} (hlevel : s.params.level ≠ .asyncOnly) (hsync : s.seqIsSync q = true)
    (hclaimed : (s.seqAt q).result = .pending ∨ s.syncBusyMask &&& s.usedUnits q ≠ 0) :
    cmdSyncTransmit (deliver n) ctx q s = .ok (s.says (s.errors 0x06 .seqInProcess) 1) := by
  have hhas : ¬ s.hasSync = false := by simp [State.hasSync, hlevel]
  have hrange : ¬ s.seqInRange q = false := by simp [State.seqInRange, hq]
  rw [cmdSyncTransmit, if_neg hhas, if_neg (by simp [hinit]), if_neg hrange, if_neg (by simp [hsync]), deliver_undisturbed hcalm,
    res_ok_bind, if_pos hclaimed, fail_eq_says]
  rfl

end

/-- What makes `LockJobs` fail: the sequence is `PENDING`, a job of it is locked, or it names a job twice. -/
theorem lockJobs_fails {s : State} {q : Nat} (hlt : ∀ j ∈ (s.cfg.seqAt q).jobs, j < s.job.length)
    (h : (lockJobs q s).1 = false ∨ (s.seqAt q).result = .pending ∨ (∃ j ∈ (s.cfg.seqAt q).jobs, (s.jobAt j).owner ≠ none) ∨
      ¬ (s.cfg.seqAt q).jobs.Nodup) : lockJobs q s = (false, s) := by
  obtain hno | ⟨m, hm, hresult, -, hnodup, hfree⟩ := lockJobs_spec hlt
  · exact hno
  · obtain hfalse | hpending | ⟨j, hj, howned⟩ | htwice := h
    · rw [hm] at hfalse; cases hfalse
    · exact absurd hpending hresult
    · exact absurd (hfree j hj) howned
    · exact absurd hnodup htwice

/-! A transmit of a cancelled sequence that arrives before its clean-up (46_cancel.md R380, 45_scheduler.md R330) -/

/-- A stimulus that is not due yet waits one point less. -/
theorem deliver_waiting {s : State} {ctx : Ctx} {x : Stimulus} {n k : Nat}
    (hins : s.inputs = [{ wait := some (k + 1), what := x }]) :
    deliver (n + 1) ctx s = .ok { s with inputs := [{ wait := some k, what := x }] } := by
  simp only [deliver, hins, pick]

/-- The one stimulus that waits is due, and runs. -/
theorem deliver_due {s t : State} {ctx : Ctx} {x : Stimulus} {n : Nat} (hins : s.inputs = [{ wait := some 0, what := x }])
    (hadm : admissible s ctx x = true) (hrun : runStimulus (deliver n) ctx x { s with inputs := [] } = .ok t)
    (hcalm : t.undisturbed = true) : deliver (n + 1) ctx s = .ok t := by
  simp only [deliver, hins, pick, if_pos hadm, hrun, deliver_undisturbed hcalm]

/-- A nested transmit of a sequence that waits for its clean-up is rejected. -/
theorem deliver_rejects {s : State} {ctx : Ctx} {k : BitVec 16} {n : Nat}
    (hins : s.inputs = [{ wait := some 0, what := .port (encode (.asyncTransmit k)) }]) (hhost : hostMayAct s ctx = true)
    (hwaits : k.toNat ∈ ctx.cleanups) (hlevel : s.params.level ≠ .syncOnly) (hinit : s.drvInit = true)
    (hq : k.toNat < s.cfg.numSeqs) (hsync : s.seqIsSync k.toNat = false) :
    deliver (n + 1) ctx s = .ok (({ s with inputs := [] } : State).says (s.errors 0x07 .seqPending) 1) := by
  have hdecode : decode (encode (.asyncTransmit k)) = .ok (.asyncTransmit k) := decodeAfterEncode _ rfl
  have hrun : runStimulus (deliver n) ctx (.port (encode (.asyncTransmit k))) { s with inputs := [] } =
      cmdAsyncTransmit (deliver n) ctx k.toNat { s with inputs := [] } := by
    simp only [runStimulus, hdecode]
    rfl
  exact deliver_due hins hhost (hrun.trans (cmdAsyncTransmit_locked (s := { s with inputs := [] }) rfl hinit hq hlevel hsync
    (if_pos hwaits))) rfl

/-- `s` between `CS7` of job `j` and the clean-up of its cancelled sequence `q`, which became `e`; `ins` is still to come and `es` was
sent out meanwhile. -/
def State.cleaning (s : State) (j q : Nat) (e : SeqState) (ins : List Arrival) (es : List Entry) : State :=
  { s with
    job := s.job.set j { s.jobAt j with owner := none, result := .ok }
    seq := s.seq.set q e
    inputs := ins
    trace := s.trace ++ es }

section
variable {s : State} {j q : Nat} {e : SeqState}

theorem notify_cleaning (ins : List Arrival) (es : List Entry) (on : Bool) (k : NotifKind) (i : Nat) :
    notify on k i (s.cleaning j q e ins es) = s.cleaning j q e ins (es ++ notice on k i) := by
  rw [notify_eq, State.cleaning, List.append_assoc]
  rfl

/-- The end of a job of a cancelled sequence, segment by segment (45_scheduler.md R345, 46_cancel.md R374). -/
theorem jobTransferFinished_segments {b : Boundary} {ctx : Ctx} {ins ins' ins'' : List Arrival} {es es' : List Entry}
    (howner : (s.jobAt j).owner = some q) (hcancelled : (s.seqAt q).result = .cancelled) (hone : (s.seqAt q).finishOne = .ok e)
    (hfirst : b ctx s = .ok { s with inputs := ins })
    (hsecond : b (ctx.enterCleanup true q) (s.cleaning j q e ins []) = .ok (s.cleaning j q e ins' es))
    (hthird : b (ctx.enterCleanup true q) (s.cleaning j q e ins' (es ++ notice (s.cfg.jobAt j).endNotif .jobEnd j)) =
      .ok (s.cleaning j q e ins'' es')) :
    jobTransferFinished b ctx j s = scheduleNextJob b ctx (s.unitOf j) (notify (s.params.cancelFiresSeqEnd &&
      (s.cfg.seqAt q).endNotif) .seqEnd q (unlockRemaining q (s.cfg.seqAt q).jobs (s.cleaning j q e ins'' es'))) := by
  have hfinish : finishJob j q { s with inputs := ins } = .ok (s.cleaning j q e ins []) := by
    rw [State.cleaning, List.append_nil, finishJob, show State.seqAt { s with inputs := ins } q = s.seqAt q from rfl, hone]
    rfl
  have howner' : (State.jobAt { s with inputs := ins } j).owner = some q := howner
  have hcancelled' : (State.seqAt { s with inputs := ins } q).result = .cancelled := hcancelled
  have hnotify := (congrArg _ (notify_cleaning ins' es (s.cfg.jobAt j).endNotif .jobEnd j)).trans hthird
  have hcfg : ∀ ins es, (s.cleaning j q e ins es).cfg = s.cfg := fun _ _ => rfl
  have hparams : ∀ l, (unlockRemaining q l (s.cleaning j q e ins'' es')).params = s.params := fun l => by
    rw [unlockRemaining_onlyJob]; rfl
  have hcfg' : ∀ l, (unlockRemaining q l (s.cleaning j q e ins'' es')).cfg = s.cfg := fun l => by
    rw [unlockRemaining_onlyJob]; rfl
  simp only [jobTransferFinished, hfirst, res_ok_bind, howner', hcancelled', hfinish, decide_true, hsecond, hcfg, cancelCleanup,
    hnotify, if_pos, hparams, hcfg']
  rfl

theorem unlockRemaining_job_congr {q : Nat} {l : List Nat} {s t : State} (h : t.job = s.job) :
    (unlockRemaining q l t).job = (unlockRemaining q l s).job := by
  induction l generalizing s t with
  | nil => exact h
  | cons j rest ih =>
    have hat : t.jobAt j = s.jobAt j := by rw [State.jobAt, h]; rfl
    have hjob : (t.setJobOwner j none).job = (s.setJobOwner j none).job := by
      rw [State.setJobOwner, State.setJobOwner, setJob_job, setJob_job, hat, h]
    rw [unlockRemaining, unlockRemaining, hat]
    split
    · exact ih hjob
    · exact ih h

/-- After the clean-up, with nothing waiting for the unit. -/
theorem scheduleNextJob_cleaned {ctx : Ctx} {n : Nat} {es : List Entry} {on : Bool} {l : List Nat}
    (hnone : (s.unitAt (s.unitOf j)).maxPrio < 0) : scheduleNextJob (deliver n) ctx (s.unitOf j)
      (notify on .seqEnd q (unlockRemaining q l (s.cleaning j q e [] es))) =
      .ok { s.cleaning j q e [] (es ++ notice on .seqEnd q) with
        job := (unlockRemaining q l (s.jobEnded j q e)).job
        unit := s.unit.set (s.unitOf j) { s.unitAt (s.unitOf j) with status := .idle } } := by
  have hstate : notify on .seqEnd q (unlockRemaining q l (s.cleaning j q e [] es)) =
      { s.cleaning j q e [] (es ++ notice on .seqEnd q) with job := (unlockRemaining q l (s.jobEnded j q e)).job } := by
    have hjob : (unlockRemaining q l (s.cleaning j q e [] es)).job = (unlockRemaining q l (s.jobEnded j q e)).job :=
      unlockRemaining_job_congr rfl
    rw [unlockRemaining_onlyJob, hjob, notify_eq]
    simp only [State.cleaning, List.append_assoc]
  rw [hstate]
  exact scheduleNextJob_none rfl hnone

end

/-- What a boundary sends out at which a transmit is rejected, and which comes before or after the job's end is notified. -/
def State.rejection (s : State) (j w : Nat) : List Entry :=
  if w = 0 then s.errors 0x07 .seqPending ++ [.rsp 1] ++ notice (s.cfg.jobAt j).endNotif .jobEnd j
  else notice (s.cfg.jobAt j).endNotif .jobEnd j ++ s.errors 0x07 .seqPending ++ [.rsp 1]

/-- A transmit of the sequence that arrives `w` boundaries after `CS7` is rejected there; then the clean-up comes. -/
theorem jobTransferFinished_transmitRejected {s : State} {ctx : Ctx} {k : BitVec 16} {j n w : Nat} {e : SeqState}
    (hins : s.inputs = [{ wait := some (w + 1), what := .port (encode (.asyncTransmit k)) }]) (hw : w < 2)
    (hhost : s.params.hostPreemption = true) (hctx : ctx.handler = false) (hlevel : s.params.level ≠ .syncOnly)
    (hinit : s.drvInit = true) (hq : k.toNat < s.cfg.numSeqs) (hsync : s.seqIsSync k.toNat = false)
    (howner : (s.jobAt j).owner = some k.toNat) (hcancelled : (s.seqAt k.toNat).result = .cancelled)
    (hone : (s.seqAt k.toNat).finishOne = .ok e) : jobTransferFinished (deliver (n + 1)) ctx j s =
      scheduleNextJob (deliver (n + 1)) ctx (s.unitOf j) (notify (s.params.cancelFiresSeqEnd && (s.cfg.seqAt k.toNat).endNotif) .seqEnd
        k.toNat (unlockRemaining k.toNat (s.cfg.seqAt k.toNat).jobs (s.cleaning j k.toNat e [] (s.rejection j w)))) := by
  have hmay : ∀ {ins es}, hostMayAct (s.cleaning j k.toNat e ins es) (ctx.enterCleanup true k.toNat) = true := fun {_ _} => by
    simp [hostMayAct, Ctx.enterCleanup, State.cleaning, hhost, hctx]
  have hreject : ∀ {es}, deliver (n + 1) (ctx.enterCleanup true k.toNat)
      (s.cleaning j k.toNat e [{ wait := some 0, what := .port (encode (.asyncTransmit k)) }] es) =
      .ok (s.cleaning j k.toNat e [] (es ++ (s.errors 0x07 .seqPending ++ [.rsp 1]))) := fun {es} => by
    rw [deliver_rejects rfl hmay List.mem_cons_self hlevel hinit hq hsync]
    simp only [State.cleaning, State.says, List.append_assoc]
    rfl
  have hfirst := deliver_waiting (n := n) (ctx := ctx) hins
  obtain rfl | rfl : w = 0 ∨ w = 1 := by omega
  · exact jobTransferFinished_segments howner hcancelled hone hfirst hreject (deliver_undisturbed rfl _ _)
  · have hthird := hreject (es := notice (s.cfg.jobAt j).endNotif .jobEnd j)
    rw [← List.append_assoc] at hthird
    exact jobTransferFinished_segments howner hcancelled hone hfirst (deliver_waiting rfl) hthird

/-- Settles O32: a lock that cannot be had changes nothing; the nested transmit finds its sequence waiting for the clean-up. -/
theorem concurrencyRejections : Obligations.ConcurrencyRejections := by
  unfold Obligations.ConcurrencyRejections
  refine ⟨fun s k hcalm htables hinit hq => ?rejected, fun n w ctx s k j u r hins hw hn hhost hctx hlevel htables hinit hq hsync hj hu
    howner hcancelled hleft hnone => ?nested⟩
  case rejected =>
    have hfit := fit_of_tablesOk htables hinit
    refine ⟨fun hlevel hsync hlock => ?_, fun hlevel hsync hclaimed =>
      congrArg outcome (cmdSyncTransmit_claimed hcalm hinit hq hlevel hsync hclaimed)⟩
    have hlocked : tryLock .foreground k.toNat s = (false, s) := (if_neg List.not_mem_nil).trans
      (lockJobs_fails (fun j hj => hfit.job_lt (hfit.seqJob_lt hq hj)) hlock)
    exact congrArg outcome (cmdAsyncTransmit_locked hcalm hinit hq hlevel hsync hlocked)
  case nested =>
    subst hu
    obtain ⟨n, rfl⟩ := Nat.exists_eq_succ_of_ne_zero hn.ne'
    have hfit := fit_of_tablesOk htables hinit
    have hjobs := unlockRemaining_jobAt (s := s) (q := k.toNat) (e := { s.seqAt k.toNat with remainingJobs := r }) (hfit.job_lt hj)
      fun i hi => hfit.job_lt (hfit.seqJob_lt hq hi)
    have hrun := jobTransferFinished_transmitRejected (n := n) hins hw hhost hctx hlevel hinit hq hsync howner hcancelled
      (finishOne_cancelled hcancelled hleft)
    refine ⟨_, hrun.trans (scheduleNextJob_cleaned hnone), ?_, (hjobs j).trans (if_pos rfl), fun i hi => (hjobs i).trans (if_neg hi.symm)⟩
    rw [State.cleaning, ← List.append_assoc]
    rfl

end Sys2Proof.Machine

/-! PROOFS of the scheduler family, the priority arbiter (45_scheduler.md R340, R342, R350): a unit's queue as the list of its waiting
jobs in the order of their arrival, which `CS3` appends to and from which `CS4` takes the first of the highest priority. -/

namespace Sys2Proof.Machine

/-! The segment `CS4` on a queue in order (R342) -/

section
variable {q : UnitQ} (h : q.ok = true)
include h

/-- The highest level with a waiting job is the marked one. -/
theorem UnitQ.maxPrio_eq {p j : Nat} (hp : p < 4) (hj : q.headAt p = some j)
    (habove : ∀ p', p < p' → p' < 4 → q.headAt p' = none) : q.maxPrio = p := by
  obtain ⟨-, -, hlow, hhigh, hlevels⟩ := UnitQ.ok_iff.1 h
  obtain ⟨-, hnone, -⟩ := hlevels p hp
  have hge : ¬ q.maxPrio < p := fun hlt => by simp [hnone hlt] at hj
  by_contra hne
  obtain ⟨-, -, hsome⟩ := hlevels q.maxPrio.toNat (by omega)
  have hmark := hsome (by omega)
  rw [habove _ (by omega) (by omega)] at hmark
  cases hmark

theorem UnitQ.maxPrio_neg (hempty : ∀ p, p < 4 → q.headAt p = none) : q.maxPrio < 0 := by
  obtain ⟨-, -, hlow, hhigh, hlevels⟩ := UnitQ.ok_iff.1 h
  by_contra hge
  obtain ⟨-, -, hsome⟩ := hlevels q.maxPrio.toNat (by omega)
  have hmark := hsome (by omega)
  rw [hempty _ (by omega)] at hmark
  cases hmark

end

section
variable {s : State} {u : Nat} (h : (s.unitAt u).ok = true)
include h

theorem popNext_empty (hempty : ∀ p, p < 4 → (s.unitAt u).headAt p = none) : popNext u s = .ok (none, s.setUnitStatus u .idle) :=
  if_pos (UnitQ.maxPrio_neg h hempty)

theorem popNext_highest {p j : Nat} (hp : p < 4) (hj : (s.unitAt u).headAt p = some j)
    (habove : ∀ p', p < p' → p' < 4 → (s.unitAt u).headAt p' = none) :
    popNext u s = .ok (some j, (s.popJob u p j).setJobResult j .pending) := by
  have hmax := UnitQ.maxPrio_eq h hp hj habove
  simp only [popNext, hmax, Int.toNat_natCast, hj, if_neg (show ¬ (p : Int) < 0 by omega)]
  rfl

end

/-- What `CS4` leaves of the job it takes and of the others. -/
theorem popJob_pending_jobAt {s : State} {j : Nat} (u p : Nat) :
    (j < s.job.length → ((s.popJob u p j).setJobResult j .pending).jobAt j = { s.jobAt j with result := .pending, next := none }) ∧
    ∀ i, i ≠ j → ((s.popJob u p j).setJobResult j .pending).jobAt i = s.jobAt i := by
  refine ⟨fun hj => ?_, fun i hi => ?_⟩
  · have hat : (s.popJob u p j).jobAt j = { s.jobAt j with next := none } := jobAt_setJob_same (s.setUnit u _) j _ hj
    rw [State.setJobResult, jobAt_setJob_same _ _ _ (by simpa [State.popJob] using hj), hat]
  · rw [State.setJobResult, jobAt_setJob_ne _ _ _ _ hi.symm]
    exact jobAt_setJob_ne _ _ _ _ hi.symm

/-- Settles O46: `CS4` takes the head of the marked level, which is the highest with one. -/
theorem popTakesTheHighestLevel : Obligations.PopTakesTheHighestLevel := by
  unfold Obligations.PopTakesTheHighestLevel
  refine fun s u hu hok => ⟨fun hempty => popNext_empty hok hempty, fun p j hp hj habove => ?_⟩
  obtain ⟨htaken, hothers⟩ := popJob_pending_jobAt (s := s) (j := j) u p
  have hunit := popJob_unitAt hu p j u
  rw [if_pos rfl] at hunit
  refine ⟨_, popNext_highest hok hp hj habove, rfl, ?_, popJob_status hu p j u, ?_, ?_, fun p' hne => ⟨?_, ?_⟩, htaken, hothers,
    fun u' hne => (popJob_unitAt hu p j u').trans (if_neg hne.symm)⟩ <;> rw [setJobResult_unitAt, hunit]
  · exact UnitQ.pop_ok hok (UnitQ.maxPrio_eq hok hp hj habove).symm _
  · rw [UnitQ.headAt_pop hok hp, if_pos rfl]
  · rw [UnitQ.tailAt_pop hok hp]; simp
  · rw [UnitQ.headAt_pop hok hp, if_neg hne.symm]
  · rw [UnitQ.tailAt_pop hok hp, if_neg fun hc => hne hc.1.symm]

/-! A queue as the list of its jobs in the order of their arrival -/

/-- The jobs of a list that have priority `p`. -/
def jobsAtLevel (c : Cfg) (l : List Nat) (p : Nat) : List Nat := l.filter fun j => (c.jobAt j).priority = p

theorem mem_jobsAtLevel {c : Cfg} {l : List Nat} {p j : Nat} : j ∈ jobsAtLevel c l p ↔ j ∈ l ∧ (c.jobAt j).priority = p := by
  simp [jobsAtLevel]

/-- Unit `u` holds the jobs `l`, which arrived in this order: each level is the list of those of its priority (10_state.md R60, R61). -/
structure Holds (c : Cfg) (s : State) (u : Nat) (l : List Nat) : Prop where
  cfg : s.cfg = c
  unit : u < s.unit.length
  queue : (s.unitAt u).ok = true
  nodup : l.Nodup
  jobs : ∀ j ∈ l, j < s.job.length ∧ (c.jobAt j).priority < 4
  linked : ∀ p, p < 4 → Linked (fun j => (s.jobAt j).next) ((s.unitAt u).headAt p) (jobsAtLevel c l p)
  tail : ∀ p, p < 4 → (s.unitAt u).tailAt p = (jobsAtLevel c l p).getLast?

namespace Holds

variable {c : Cfg} {s : State} {u j p : Nat} {l : List Nat} (h : Holds c s u l)
include h

/-- `CS3` puts the job after those that wait already. -/
theorem enqueue (hu : s.unitOf j = u) (hj : j < s.job.length) (hprio : (c.jobAt j).priority < 4) (hnew : j ∉ l) :
    Holds c (enqueue j s) u (l ++ [j]) := by
  obtain ⟨rfl, hunit, hqueue, hnodup, hjobs, hlinked, htail⟩ := h
  subst hu
  have hunitAt := enqueue_unitAt hunit (s.unitOf j)
  rw [if_pos rfl] at hunitAt
  have hnext := enqueue_next hj fun t ht => by
    rw [htail _ hprio] at ht
    exact (hjobs t (mem_jobsAtLevel.1 (List.mem_of_getLast? ht)).1).1
  have hne : ∀ {k i}, k ∈ jobsAtLevel s.cfg l i → j ≠ k := fun hk he => hnew (he ▸ (mem_jobsAtLevel.1 hk).1)
  have hlevel : ∀ i, jobsAtLevel s.cfg (l ++ [j]) i =
      jobsAtLevel s.cfg l i ++ if (s.cfg.jobAt j).priority = i then [j] else [] := fun i => by
    by_cases hi : (s.cfg.jobAt j).priority = i <;> simp [jobsAtLevel, hi]
  obtain ⟨us, js, hframe⟩ := enqueue_frame j s
  refine ⟨by rw [hframe], ?_, by rw [hunitAt]; exact UnitQ.push_ok hqueue hprio j, ?_, fun k hk => ?_, fun i hi => ?_, fun i hi => ?_⟩
  · rw [(enqueue_sameTables j s).unit]; exact hunit
  · exact List.nodup_append.2 ⟨hnodup, List.nodup_singleton j, fun a ha b hb he => hnew (List.mem_singleton.1 hb ▸ he ▸ ha)⟩
  · rw [enqueue_job_length]
    obtain hk | hk := List.mem_append.1 hk
    · exact hjobs k hk
    · rw [List.mem_singleton.1 hk]; exact ⟨hj, hprio⟩
  · rw [hunitAt, UnitQ.headAt_push hqueue hprio, hlevel]
    by_cases hi' : (s.cfg.jobAt j).priority = i
    · subst hi'
      simp only [true_and, if_true, htail _ hprio, List.getLast?_eq_none_iff]
      refine (hlinked _ hi).append (hnodup.filter _) (fun k hk => ?_) ?_
      · rw [hnext, htail _ hprio, if_neg (hne hk)]
      · rw [hnext, htail _ hprio, if_neg fun hl => hne (List.mem_of_getLast? hl) rfl, if_pos rfl]
    · rw [if_neg fun hc => hi' hc.1, if_neg hi', List.append_nil]
      refine (hlinked i hi).congr fun k hk => ?_
      have hlast : (jobsAtLevel s.cfg l (s.cfg.jobAt j).priority).getLast? ≠ some k := fun hl =>
        hi' ((mem_jobsAtLevel.1 (List.mem_of_getLast? hl)).2.symm.trans (mem_jobsAtLevel.1 hk).2)
      rw [hnext, htail _ hprio, if_neg hlast, if_neg (hne hk)]
  · rw [hunitAt, UnitQ.tailAt_push hqueue hprio, hlevel, htail i hi]
    by_cases hi' : (s.cfg.jobAt j).priority = i <;> simp [hi']

/-- With no job waiting the unit becomes idle. -/
theorem popNext_nil (hl : l = []) : popNext u s = .ok (none, s.setUnitStatus u .idle) :=
  popNext_empty h.queue fun p hp => by simpa [hl, jobsAtLevel, Linked] using h.linked p hp

/-- `CS4` takes the first of the jobs of the highest priority. -/
theorem popNext_cons {rest : List Nat} (hp : p < 4) (hfirst : jobsAtLevel c l p = j :: rest)
    (hhighest : ∀ i ∈ l, (c.jobAt i).priority ≤ p) :
    ∃ t, popNext u s = .ok (some j, t) ∧ Holds c t u (l.erase j) := by
  obtain ⟨rfl, hunit, hqueue, hnodup, hjobs, hlinked, htail⟩ := h
  obtain ⟨hmem, hprio⟩ := mem_jobsAtLevel.1 (hfirst ▸ List.mem_cons_self : j ∈ jobsAtLevel s.cfg l p)
  have hlinks := hlinked p hp
  rw [hfirst] at hlinks
  obtain ⟨hhead, hrest⟩ := hlinks
  have habove : ∀ p', p < p' → p' < 4 → (s.unitAt u).headAt p' = none := fun p' hlt hp' => by
    have hnone : jobsAtLevel s.cfg l p' = [] := List.filter_eq_nil_iff.2 fun i hi => by
      have := hhighest i hi
      simp; omega
    have hlinks := hlinked p' hp'
    rwa [hnone] at hlinks
  have hlevel : ∀ i, jobsAtLevel s.cfg (l.erase j) i = if p = i then rest else jobsAtLevel s.cfg l i := fun i => by
    have herase : jobsAtLevel s.cfg (l.erase j) i = (jobsAtLevel s.cfg l i).erase j := by
      rw [jobsAtLevel, jobsAtLevel, (hnodup.filter _).erase_eq_filter, hnodup.erase_eq_filter, List.filter_comm]
    rw [herase]
    split
    next he => rw [← he, hfirst, List.erase_cons_head]
    next he => exact List.erase_of_not_mem fun hj => he (hprio.symm.trans (mem_jobsAtLevel.1 hj).2)
  have hnot : ∀ k ∈ l.erase j, j ≠ k := fun k hk he => (hnodup.mem_erase_iff.1 hk).1 he.symm
  have hunitAt := popJob_unitAt hunit p j u
  rw [if_pos rfl] at hunitAt
  have hnext : ∀ i, ∀ k ∈ jobsAtLevel s.cfg (l.erase j) i,
      (((s.popJob u p j).setJobResult j .pending).jobAt k).next = (s.jobAt k).next := fun i k hk => by
    rw [setJobResult_next, popJob_next (hjobs j hmem).1, if_neg (hnot k (mem_jobsAtLevel.1 hk).1)]
  have hafter : (s.jobAt j).next = none ↔ rest = [] := by
    cases rest with
    | nil => exact iff_of_true hrest rfl
    | cons k rest => exact iff_of_false (by simp [hrest.1]) (List.cons_ne_nil _ _)
  refine ⟨_, popNext_highest hqueue hp hhead habove, rfl, ?_, ?_, hnodup.erase j, fun k hk => ?_, fun i hi => ?_, fun i hi => ?_⟩
  · rw [setJobResult_unit, (popJob_sameTables s u p j).unit]; exact hunit
  · rw [setJobResult_unitAt, hunitAt]
    exact UnitQ.pop_ok hqueue (UnitQ.maxPrio_eq hqueue hp hhead habove).symm _
  · rw [setJobResult_job_length, (popJob_sameTables s u p j).job]
    exact hjobs k (List.mem_of_mem_erase hk)
  · refine Linked.congr (next := fun k => (s.jobAt k).next) ?_ (hnext i)
    rw [setJobResult_unitAt, hunitAt, UnitQ.headAt_pop hqueue hp, hlevel]
    split
    · exact hrest
    · exact hlinked i hi
  · rw [setJobResult_unitAt, hunitAt, UnitQ.tailAt_pop hqueue hp, hlevel, htail i hi]
    by_cases hi' : p = i
    · subst hi'
      simp only [true_and, hafter, if_true, hfirst]
      cases rest <;> simp
    · simp [hi']

end Holds

/-! A queue that holds nothing -/

/-- All lists are empty and no level is marked. -/
structure UnitQ.Empty (q : UnitQ) : Prop where
  head : q.head = [none, none, none, none]
  tail : q.tail = [none, none, none, none]
  maxPrio : q.maxPrio = -1

namespace UnitQ.Empty

variable {q : UnitQ} (h : q.Empty) {p : Nat} (hp : p < 4)
include h hp

theorem headAt : q.headAt p = none := by
  have hnone : ∀ p, p < 4 → tget [none, none, none, none] p = (none : Option Nat) := by decide
  rw [UnitQ.headAt, h.head, hnone p hp]

theorem tailAt : q.tailAt p = none := by
  have hnone : ∀ p, p < 4 → tget [none, none, none, none] p = (none : Option Nat) := by decide
  rw [UnitQ.tailAt, h.tail, hnone p hp]

theorem pop_push (j : Nat) : (q.push p j).pop p none = q := by
  have htop : ∀ p, p < 4 → topLevel [none, none, none, none] (p + 1) = -1 := by decide
  have hclear : ∀ p, p < 4 → [none, none, none, none].set p none = [none, none, none, (none : Option Nat)] := by decide
  have hnone := h.tailAt hp
  obtain ⟨st, head, tail, maxPrio⟩ := q
  obtain ⟨rfl, rfl, rfl⟩ := h
  simp [UnitQ.push, UnitQ.pop, hnone, tset, hclear p hp, htop p hp]

end UnitQ.Empty

/-- Empty lists hold no job. -/
theorem holds_nil {s : State} {u : Nat} (hu : u < s.unit.length) (h : (s.unitAt u).Empty) : Holds s.cfg s u [] := by
  have hheads : ∀ p, p < 4 → (s.unitAt u).headAt p = none := fun p hp => h.headAt hp
  have htails : ∀ p, p < 4 → (s.unitAt u).tailAt p = none := fun p hp => h.tailAt hp
  obtain ⟨hhead, htail, hmax⟩ := h
  have hqueue : (s.unitAt u).ok = true := by
    refine UnitQ.ok_iff.2 ⟨by rw [hhead]; rfl, by rw [htail]; rfl, by omega, by omega, fun p hp => ⟨?_, fun _ => hheads p hp, ?_⟩⟩
    · rw [hheads p hp, htails p hp]
    · omega
  exact ⟨rfl, hu, hqueue, List.nodup_nil, nofun, hheads, htails⟩

/-! Jobs that arrive at a busy unit (R340) -/

theorem claimOrEnqueue_waits {s : State} {j : Nat} (hwait : (s.unitAt (s.unitOf j)).status ≠ .idle) :
    claimOrEnqueue j s = (false, enqueue j s) := if_neg hwait

/-- The jobs of a list, given to their unit one after another. -/
def giveAll (js : List Nat) (s : State) : State := js.foldl (fun s j => (claimOrEnqueue j s).2) s

/-- A busy unit holds all jobs that arrive, in the order of their arrival. -/
theorem Holds.giveAll {c : Cfg} {s : State} {u : Nat} {l js : List Nat} (h : Holds c s u l) (hbusy : (s.unitAt u).status = .busy)
    (hnodup : (l ++ js).Nodup) (hjs : ∀ j ∈ js, j < s.job.length ∧ (c.jobAt j).hwUnit = u ∧ (c.jobAt j).priority < 4) :
    Holds c (giveAll js s) u (l ++ js) := by
  induction js generalizing s l with
  | nil => rw [List.append_nil]; exact h
  | cons j rest ih =>
    obtain ⟨hj, hunit, hprio⟩ := hjs j List.mem_cons_self
    have hu : s.unitOf j = u := by rw [State.unitOf, h.cfg, hunit]
    have hgiven : (claimOrEnqueue j s).2 = Machine.enqueue j s := by rw [claimOrEnqueue_waits (by simp [hu, hbusy])]
    have hassoc : l ++ j :: rest = l ++ [j] ++ rest := (List.append_assoc l [j] rest).symm
    have hnew : j ∉ l := fun hmem => (List.nodup_append.1 hnodup).2.2 j hmem j List.mem_cons_self rfl
    rw [hassoc] at hnodup ⊢
    rw [Machine.giveAll, List.foldl_cons, hgiven]
    refine ih (h.enqueue hu hj hprio hnew) ?_ hnodup fun i hi => ?_
    · rw [enqueue_status (by rw [hu]; exact h.unit)]; exact hbusy
    · rw [enqueue_job_length]; exact hjs i (List.mem_cons_of_mem j hi)

/-- Three jobs at priorities 1, 3 and 2 come out 3, 2, 1; then the unit is idle. -/
theorem Holds.popNext_three {cfg : Cfg} {s : State} {u b c d : Nat} (h : Holds cfg s u [b, c, d])
    (hb : (cfg.jobAt b).priority = 1) (hc : (cfg.jobAt c).priority = 3) (hd : (cfg.jobAt d).priority = 2) :
    ∃ s1 s2 s3 s4, popNext u s = .ok (some c, s1) ∧ popNext u s1 = .ok (some d, s2) ∧ popNext u s2 = .ok (some b, s3) ∧
      popNext u s3 = .ok (none, s4) ∧ (s4.unitAt u).status = .idle := by
  have hnodup := h.nodup
  simp only [List.nodup_cons, List.mem_cons, List.not_mem_nil, or_false, not_or] at hnodup
  obtain ⟨⟨hbc, hbd⟩, hcd, -⟩ := hnodup
  obtain ⟨s1, hpop1, h1⟩ := h.popNext_cons (p := 3) (j := c) (rest := []) (by decide) (by simp [jobsAtLevel, hb, hc, hd])
    (by simp [hb, hc, hd])
  rw [show [b, c, d].erase c = [b, d] by simp [hbc]] at h1
  obtain ⟨s2, hpop2, h2⟩ := h1.popNext_cons (p := 2) (j := d) (rest := []) (by decide) (by simp [jobsAtLevel, hb, hd]) (by simp [hb, hd])
  rw [show [b, d].erase d = [b] by simp [hbd]] at h2
  obtain ⟨s3, hpop3, h3⟩ := h2.popNext_cons (p := 1) (j := b) (rest := []) (by decide) (by simp [jobsAtLevel, hb]) (by simp [hb])
  rw [List.erase_cons_head] at h3
  exact ⟨s1, s2, s3, _, hpop1, hpop2, hpop3, h3.popNext_nil rfl, by rw [setUnitStatus_status h3.unit, if_pos rfl]⟩

/-- Settles O45: the busy unit holds all four jobs, the idle one starts the first and holds the others. -/
theorem priorityOrder : Obligations.PriorityOrder := by
  unfold Obligations.PriorityOrder
  intro s u a b c d hnodup hjobs hu ha hb hc hd hhead htail hmax
  have hjobs' : ∀ j ∈ [a, b, c, d], j < s.job.length ∧ (s.cfg.jobAt j).hwUnit = u ∧ (s.cfg.jobAt j).priority < 4 := fun j hj => by
    obtain ⟨hlt, hunit⟩ := hjobs j hj
    refine ⟨hlt, hunit, ?_⟩
    simp only [List.mem_cons, List.not_mem_nil, or_false] at hj
    obtain rfl | rfl | rfl | rfl := hj <;> omega
  refine ⟨fun hbusy => ?busy, fun hidle => ?idle⟩
  case busy =>
    have h := (holds_nil hu ⟨hhead, htail, hmax⟩).giveAll hbusy hnodup hjobs'
    obtain ⟨s1, hpop1, h1⟩ := h.popNext_cons (p := 3) (j := a) (rest := [c]) (by decide) (by simp [jobsAtLevel, ha, hb, hc, hd])
      (by simp [ha, hb, hc, hd])
    rw [List.nil_append, List.erase_cons_head] at h1
    obtain ⟨s2, s3, s4, s5, hpops⟩ := h1.popNext_three hb hc hd
    exact ⟨s1, s2, s3, s4, s5, hpop1, hpops⟩
  case idle =>
    obtain ⟨hlt, hunit⟩ := hjobs a List.mem_cons_self
    have hclaim : claimOrEnqueue a s = (true, (s.setUnitStatus u .busy).setJobResult a .pending) := by
      rw [claimOrEnqueue, hunit, if_pos hidle]
    have hunitAt : ((s.setUnitStatus u .busy).setJobResult a .pending).unitAt u = { s.unitAt u with status := .busy } :=
      unitAt_setUnit_same _ _ _ hu
    have hempty := holds_nil (s := (s.setUnitStatus u .busy).setJobResult a .pending) (u := u)
      (hu.trans_eq (List.length_set ..).symm) (by rw [hunitAt]; exact ⟨hhead, htail, hmax⟩)
    have h := hempty.giveAll (js := [b, c, d]) (by rw [hunitAt]) (List.nodup_cons.1 hnodup).2 fun j hj => by
      rw [setJobResult_job_length]; exact hjobs' j (List.mem_cons_of_mem a hj)
    rw [hclaim]
    refine ⟨rfl, ?_, h.popNext_three hb hc hd⟩
    rw [setJobResult_result (by exact hlt), if_pos rfl]

end Sys2Proof.Machine

/-! SUPPORT of the scheduler family: a job that can be transferred starts, whatever room its unit's transmit FIFO has (41_engine_fifo.md
R211 to R218, 42_engine_dma.md R252; a write without room takes a free value, log 12), and touches its unit and DMA channels only. -/

namespace Sys2Proof.Machine

/-- `s` with the free values below `f` used up (log 12). -/
def State.withFree (s : State) (f : Nat) : State := { s with freeCount := f }

theorem Alone.withFree {s : State} {u : Nat} (h : Alone s u) (f : Nat) : Alone (s.withFree f) u := ⟨h.dev, h.lpspi, h.calm⟩

/-! Frames into a FIFO with or without room (R217) -/

section
variable {s : State} {u j c : Nat} {m : Memory} {d : Dev} {p : Lpspi} {es : List Entry} (h : Alone s u)
include h

theorem regWrite_anyRoom (w : RegWrite) : ∃ f p', regWrite u w (s.onUnit u m d p es) =
    .ok ((s.withFree f).onUnit u m d p' (es ++ [.regWrite u w])) := by
  refine ⟨if usesFree s.params.fifoSize p w = true then s.freeCount + 1 else s.freeCount, p.write s.params.fifoSize s.freeCount w, ?_⟩
  rw [regWrite_undisturbed h.onUnit, ← emit_onUnit]
  simp only [State.pokeReg, lpspiAt_onUnit h, onUnit_params, onUnit_freeCount]
  simp [State.onUnit, State.withFree, tset]

theorem sendFrame_anyRoom {w : Width} {v : Word} (hleft : 0 < d.txRemaining) (hsent : d.sentFrames < 65535)
    (hv : txFrameValue (s.setMem m) c w ((s.chanAt c).length - d.txRemaining) = .ok v) :
    ∃ f p', sendFrame u c w (s.onUnit u m d p es) =
      .ok ((s.withFree f).onUnit u m (d.sent 1) p' (es ++ [.regWrite u (.txdata v)])) := by
  obtain ⟨f, p', hwrite⟩ := regWrite_anyRoom (m := m) (d := d) (p := p) (es := es) h (.txdata v)
  have hdown : countDown d.txRemaining = .ok (d.txRemaining - 1) := countDown_eq_ok.2 (by omega)
  have hup : countUp d.sentFrames = .ok (d.sentFrames + 1) := countUp_eq_ok.2 ⟨hsent, rfl⟩
  refine ⟨f, p', ?_⟩
  simp only [sendFrame, devAt_onUnit h, hdown, hup, res_ok_bind, onUnit_chanAt, txFrameValue_onUnit, hv, hwrite,
    devAt_onUnit (h.withFree f), setDev_onUnit, Dev.sent]

variable (hcur : d.curJob = some j)
include hcur

/-- One frame, after which the channel may be complete. -/
theorem txWriteFrame_anyRoom (hc : c = s.chanOf j d.txChanIdx) (hready : s.chanReady c = true) (hleft : 0 < d.txRemaining)
    (hlen : d.txRemaining ≤ (s.chanAt c).length) (hsent : d.sentFrames < 65535) :
    ∃ f p' e, txWriteFrame u (s.onUnit u m d p es) =
      if d.txRemaining = 1 then txChannelComplete u ((s.withFree f).onUnit u m (d.sent 1) p' (es ++ [e]))
      else .ok ((s.withFree f).onUnit u m (d.sent 1) p' (es ++ [e])) := by
  obtain ⟨v, hv⟩ := txFrameValue_of_chanReady (i := (s.chanAt c).length - d.txRemaining) hready (by omega) m
  obtain ⟨f, p', hframe⟩ := sendFrame_anyRoom (p := p) (es := es) h hleft hsent hv
  have hdone : (d.sent 1).txRemaining = 0 ↔ d.txRemaining = 1 := show d.txRemaining - 1 = 0 ↔ _ by omega
  refine ⟨f, p', .regWrite u (.txdata v), ?_⟩
  subst hc
  simp only [txWriteFrame, currentJob_onUnit h hcur, res_ok_bind, devAt_onUnit h, onUnit_chanOf, onUnit_cfg, channelAt_width, hframe,
    devAt_onUnit (h.withFree f), hdone]

variable (hready : s.jobReady j = true) (hidx : d.txChanIdx = 0)
include hready hidx

/-- The first channel of the job is complete: the transmit side is done, or the next channel starts (R224). -/
theorem txChannelComplete_first : ∃ d' p' es', txChannelComplete u (s.onUnit u m d p es) = .ok (s.onUnit u m d' p' (es ++ es')) ∧
    d'.curJob = some j := by
  obtain ⟨hchannels, -⟩ := jobReady_iff.1 hready
  have hcount : 0 < s.numChannelsOf j := List.length_pos_of_ne_nil hchannels
  obtain hlast | hnext : d.txChanIdx + 1 = s.numChannelsOf j ∨ d.txChanIdx + 1 < s.numChannelsOf j := by omega
  · exact ⟨_, _, _, txChannelComplete_last h hcur hlast rfl, hcur⟩
  · obtain ⟨hlen, -⟩ := chanReady_iff.1 (chanReady_of_jobReady hready hnext)
    exact ⟨_, _, _, txChannelComplete_next h hcur hnext (by omega) rfl hlen rfl rfl, hcur⟩

/-- The frames of the first channel that go out at the start. -/
theorem repeatN_txWriteFrame_first {n : Nat} (hc : c = s.chanOf j 0) (hn : n ≤ d.txRemaining)
    (hlen : d.txRemaining ≤ (s.chanAt c).length) (hsent : d.sentFrames + n ≤ 65535) :
    ∃ f d' p' es', repeatN (txWriteFrame u) n (s.onUnit u m d p es) = .ok ((s.withFree f).onUnit u m d' p' (es ++ es')) ∧
      d'.curJob = some j := by
  induction n generalizing s d p es with
  | zero => exact ⟨s.freeCount, d, p, [], by rw [List.append_nil]; rfl, hcur⟩
  | succ n ih =>
    obtain ⟨hchannels, -⟩ := jobReady_iff.1 hready
    have hchan : s.chanReady c = true := hc ▸ chanReady_of_jobReady hready (List.length_pos_of_ne_nil hchannels)
    obtain ⟨f, p₁, e, hframe⟩ := txWriteFrame_anyRoom (m := m) (p := p) (es := es) h hcur (by rw [hidx]; exact hc) hchan (by omega)
      hlen (by omega)
    rw [repeatN, hframe]
    by_cases hone : d.txRemaining = 1
    · obtain rfl : n = 0 := by omega
      obtain ⟨d', p', es', hdone, hcur'⟩ := txChannelComplete_first (m := m) (d := d.sent 1) (p := p₁) (es := es ++ [e])
        (h.withFree f) hcur hready hidx
      refine ⟨f, d', p', [e] ++ es', ?_, hcur'⟩
      rw [if_pos hone, hdone, List.append_assoc]
      rfl
    · obtain ⟨f', d', p', es', hrest, hcur'⟩ := ih (s := s.withFree f) (d := d.sent 1) (p := p₁) (es := es ++ [e]) (h.withFree f) hcur
        hready hidx hc (show n ≤ d.txRemaining - 1 by omega) (show d.txRemaining - 1 ≤ (s.chanAt c).length by omega)
        (show d.sentFrames + 1 + n ≤ 65535 by omega)
      refine ⟨f', d', p', [e] ++ es', ?_, hcur'⟩
      rw [if_neg hone, ← List.append_assoc]
      exact hrest

end

/-! The start of a job (R211, R213, R252) -/

/-- Job `j` has started on unit `u`: the start notification and the clock write were sent out first, the job is in flight, and no other
unit and no other unit's DMA channel was touched. -/
structure StartsJob (s t : State) (u j : Nat) (es : List Entry) : Prop where
  frame : t = { s with
    dev := t.dev, dma := t.dma, lpspi := t.lpspi, freeCount := t.freeCount
    trace := s.trace ++ notice (s.cfg.jobAt j).startNotif .jobStart j ++
      [.regWrite u (.clkcfg (s.cfg.jobAt j).dev.clockTiming)] ++ es }
  curJob : (t.devAt u).curJob = some j
  units : ∀ v, v ≠ u → t.devAt v = s.devAt v ∧ t.lpspiAt v = s.lpspiAt v
  dma : ∀ ch, ((s.cfg.unitAt u).dmaUsed = false ∨ s.otherChannel u ch) → t.dmaAt ch = s.dmaAt ch

/-- What a job's start sends out first (R211). -/
def State.startEntries (s : State) (u j : Nat) : List Entry :=
  notice (s.cfg.jobAt j).startNotif .jobStart j ++ [.regWrite u (.clkcfg (s.cfg.jobAt j).dev.clockTiming)]

section
variable {s : State} {u j : Nat} (h : Alone s u)
include h

/-- A start that writes its unit, free values and DMA channels. -/
theorem startsJob_onUnit {f : Nat} {dm : List (Nat × DmaChan)} {d : Dev} {p : Lpspi} {es : List Entry} (hcur : d.curJob = some j)
    (hdma : ∀ ch, ((s.cfg.unitAt u).dmaUsed = false ∨ s.otherChannel u ch) → dmaLookup dm ch = s.dmaAt ch) :
    StartsJob s (State.onUnit { s with freeCount := f, dma := dm } u s.mem d p (s.startEntries u j ++ es)) u j es where
  frame := by
    rw [State.onUnit, State.startEntries, ← List.append_assoc, ← List.append_assoc]
  curJob := (congrArg Dev.curJob (tget_tset_same _ _ _ h.dev)).trans hcur
  units v hv := ⟨tget_tset_ne _ _ _ _ hv.symm, tget_tset_ne _ _ _ _ hv.symm⟩
  dma := hdma

/-- The first channel starts both ways (R214, R216); then come the frames and the interrupt enable. -/
theorem fifoJobStart_first {p : Lpspi} {es : List Entry} (hlen : 0 < (s.chanAt (s.chanOf j 0)).length) :
    ∃ p' es' x, x = s.onUnit u s.mem (s.devBeforeFrames u j) p' (es ++ es') ∧
      fifoJobStart u (s.onUnit u s.mem ((s.devAt u).entered j) p es) =
        repeatN (txWriteFrame u) (primeCount u x) x >>= fun t =>
          .ok (if (t.devAt u).asyncMode = .interrupt then irqOn u t else t) := by
  have hinit := txChannelInit_first (m := s.mem) (d := (s.devAt u).entered j) (p := p) (es := es) h rfl rfl hlen
  refine ⟨p.writes s.params.fifoSize s.freeCount (s.startWrites j).tail, (s.startWrites j).tail.map (.regWrite u), _, rfl, ?_⟩
  rw [fifoJobStart, hinit, res_ok_bind, rxChannelInit_onUnit h rfl rfl hlen]
  rfl

theorem primeCount_le {p : Lpspi} {es : List Entry} (hlen : 0 < (s.chanAt (s.chanOf j 0)).length) :
    primeCount u (s.onUnit u s.mem (s.devBeforeFrames u j) p es) ≤ (s.chanAt (s.chanOf j 0)).length := by
  rw [primeCount, devAt_onUnit h]
  split
  · exact Nat.min_le_left _ _
  · exact hlen

variable (hu : u = s.unitOf j) (hready : s.jobReady j = true)
include hu hready

/-- On a FIFO unit (R213). -/
theorem jobStart_ready_fifo (hdma : (s.cfg.unitAt u).dmaUsed = false) : ∃ t es, jobStart j s = .ok t ∧ StartsJob s t u j es := by
  obtain ⟨hchannels, hbuf, -⟩ := jobReady_iff.1 hready
  obtain ⟨hlen, hmax, -⟩ := chanReady_iff.1 (chanReady_of_jobReady hready (List.length_pos_of_ne_nil hchannels))
  obtain ⟨p₁, es₁, x, rfl, hstart⟩ := fifoJobStart_first (j := j)
    (p := (s.lpspiAt u).write s.params.fifoSize s.freeCount (.clkcfg (s.cfg.jobAt j).dev.clockTiming)) (es := s.startEntries u j) h hlen
  have hprime := primeCount_le (j := j) (p := p₁) (es := s.startEntries u j ++ es₁) h hlen
  obtain ⟨f, d, p, es, hframes, hcur⟩ := repeatN_txWriteFrame_first (m := s.mem) (d := s.devBeforeFrames u j) (p := p₁)
    (es := s.startEntries u j ++ es₁) h rfl hready rfl rfl hprime le_rfl ((Nat.zero_add _).trans_le (hprime.trans hmax))
  have hirq := irqOn_of_interrupt (s := s.withFree f) (m := s.mem) (d := d) (p := p) (es := s.startEntries u j ++ es₁ ++ es)
    (h.withFree f)
  rw [hframes, res_ok_bind, devAt_onUnit (h.withFree f), hirq, List.append_assoc, List.append_assoc] at hstart
  refine ⟨_, _, ((jobStart_eq h hu hbuf rfl).trans (if_neg (by simp [hdma]))).trans hstart, startsJob_onUnit h ?_ fun _ _ => rfl⟩
  exact hcur

/-- On a DMA unit (R252). -/
theorem jobStart_ready_dma (hdma : (s.cfg.unitAt u).dmaUsed = true) : ∃ t es, jobStart j s = .ok t ∧ StartsJob s t u j es := by
  obtain ⟨hchannels, hbuf, -⟩ := jobReady_iff.1 hready
  obtain ⟨hlen, -⟩ := chanReady_iff.1 (chanReady_of_jobReady hready (List.length_pos_of_ne_nil hchannels))
  obtain ⟨tr, htr⟩ : ∃ tr, tr = rxTcd s u (s.chanOf j 0) := ⟨_, rfl⟩
  have hstart := jobStart_eq h hu hbuf rfl
  rw [if_pos hdma, dmaJobStart, rxDmaChannelInit_onUnit (c := s.chanOf j 0) h.dev rfl rfl rfl hlen, res_ok_bind, ← htr,
    txDmaChannelInit_onUnit (s := s.setDma (s.cfg.unitAt u).dmaRxCh (.armed tr)) (c := s.chanOf j 0) (h.setDma _ _) rfl rfl rfl hlen
      (programChannel_first (h.setDma _ _) _ _ _ _), ← State.startEntries, List.append_assoc, List.append_assoc] at hstart
  refine ⟨_, _, hstart, startsJob_onUnit h (by rfl) fun ch hch => ?_⟩
  obtain ⟨htx, hrx⟩ := hch.resolve_left (by simp [hdma])
  exact (dmaAt_setDma_ne _ _ _ _ htx.symm).trans (dmaAt_setDma_ne _ _ _ _ hrx.symm)

/-- A job that can be transferred starts. -/
theorem jobStart_ready : ∃ t es, jobStart j s = .ok t ∧ StartsJob s t u j es := by
  cases hdma : (s.cfg.unitAt u).dmaUsed with
  | false => exact jobStart_ready_fifo h hu hready hdma
  | true => exact jobStart_ready_dma h hu hready hdma

end

end Sys2Proof.Machine

/-! PROOFS of the scheduler family: a sequence is accepted and its first job starts or waits (45_scheduler.md R330, R340), and a sequence
goes on with its next job (R345, R346). -/

namespace Sys2Proof.Machine

/-! `ASYNC_TRANSMIT` up to its last segment (R330, R331) -/

/-- Sequence `q` accepted with `n` jobs to do and the job table `js`. -/
def State.accepted (s : State) (q n : Nat) (js : List JobState) : State :=
  { s with job := js, seq := s.seq.set q { result := .pending, remainingJobs := n, cursor := 0 } }

/-- A sequence that is accepted: its count and cursor start afresh, its jobs are locked and `QUEUED`, and its first job is scheduled. -/
theorem cmdAsyncTransmit_accepted {s : State} {q j n : Nat} {rest : List Nat} (hfit : Fit s) (hcalm : s.undisturbed = true)
    (hq : q < s.cfg.numSeqs) (hlevel : s.params.level ≠ .syncOnly) (hsync : s.seqIsSync q = false)
    (hresult : (s.seqAt q).result ≠ .pending) (hjobs : (s.cfg.seqAt q).jobs = j :: rest) (hnodup : (j :: rest).Nodup)
    (hfree : ∀ i ∈ j :: rest, (s.jobAt i).owner = none) : ∃ js,
      cmdAsyncTransmit (deliver n) .foreground q s = (scheduleJob (deliver n) .foreground j (s.accepted q (rest.length + 1) js) >>= fun t =>
        .ok (respond eOk t)) ∧
      js.length = s.job.length ∧
      ∀ i, (s.accepted q (rest.length + 1) js).jobAt i =
        if i ∈ j :: rest then { s.jobAt i with result := .queued, owner := some q } else s.jobAt i := by
  obtain ⟨js, hlock⟩ := lockJobs_free hresult (hjobs ▸ hnodup) (hjobs ▸ hfree)
  have hlocked : LockedBy s { s with job := js } q (s.cfg.seqAt q).jobs := by
    obtain hno | ⟨m, hm, -, hlocked, -⟩ := lockJobs_spec (s := s) (q := q) fun i hi => hfit.job_lt (hfit.seqJob_lt hq hi)
    · rw [hlock] at hno; cases hno
    · rw [hlock] at hm; cases hm; exact hlocked
  have haccepts := acceptSeq_accepts hfit hq hlocked rfl
  obtain ⟨js', hqueue⟩ := queueAll_onlyJob (j :: rest) (s.accepted q (rest.length + 1) js)
  have haccept : acceptSeq q { s with job := js } = s.accepted q (rest.length + 1) js' := by
    simp only [acceptSeq, hjobs]
    exact hqueue
  rw [haccept] at haccepts
  have hasync : ¬ s.hasAsync = false := by simp [hasAsync_of_ne_syncOnly hlevel]
  have hrange : ¬ s.seqInRange q = false := by simp [State.seqInRange, hq]
  have hfirst : tget ((s.accepted q (rest.length + 1) js').cfg.seqAt q).jobs 0 = j := congrArg (tget · 0) hjobs
  have htry : tryLock .foreground q s = (true, { s with job := js }) := (if_neg List.not_mem_nil).trans hlock
  have hcalm' : ({ s with job := js } : State).undisturbed = true := hcalm
  refine ⟨js', ?_, haccepts.fit.job.trans hfit.job.symm, fun i => ?_⟩
  · rw [cmdAsyncTransmit, if_neg hasync, if_neg (by simp [hfit.init]), if_neg hrange, if_neg (by simp [hsync]),
      deliver_undisturbed hcalm, res_ok_bind]
    simp only [htry, deliver_undisturbed hcalm', res_ok_bind, haccept, hfirst]
  · have hn := haccepts.next i
    have hr := haccepts.result i
    have ho := haccepts.owner i
    rw [hjobs] at hr ho
    generalize (s.accepted q (rest.length + 1) js').jobAt i = e at hn hr ho ⊢
    obtain ⟨r, o, x⟩ := e
    simp only at hn hr ho
    subst hn hr ho
    split <;> rfl

/-! A job whose unit is idle, and one whose unit is busy (R340) -/

/-- Job `j` has claimed its unit. -/
def State.claimed (s : State) (j : Nat) : State := (s.setUnitStatus (s.unitOf j) .busy).setJobResult j .pending

/-- On an idle unit a job that can be transferred starts. -/
theorem scheduleJob_starts {s : State} {j n : Nat} {ctx : Ctx} (h : Alone s (s.unitOf j))
    (hidle : (s.unitAt (s.unitOf j)).status = .idle) (hready : s.jobReady j = true) :
    ∃ t es, scheduleJob (deliver n) ctx j s = .ok t ∧ StartsJob (s.claimed j) t (s.unitOf j) j es := by
  rw [scheduleJob_idle h.calm hidle]
  exact jobStart_ready (s := s.claimed j) ⟨h.dev, h.lpspi, h.calm⟩ rfl hready

/-- The jobs after the claim and the start. -/
theorem StartsJob.jobAt {s t : State} {j : Nat} {es : List Entry} (h : StartsJob (s.claimed j) t (s.unitOf j) j es)
    (hj : j < s.job.length) (i : Nat) : t.jobAt i = if j = i then { s.jobAt j with result := .pending } else s.jobAt i := by
  rw [h.frame]
  exact tget_tset hj _ i

/-- On a unit that is not idle a job waits. -/
theorem scheduleJob_waits {s : State} {j n : Nat} {ctx : Ctx} (hcalm : s.undisturbed = true)
    (hwait : (s.unitAt (s.unitOf j)).status ≠ .idle) : scheduleJob (deliver n) ctx j s = .ok (enqueue j s) := by
  simp [scheduleJob, hcalm, claimOrEnqueue_waits hwait]

/-- Settles O39: the accepted sequence's first job claims its unit and starts. -/
theorem asyncTransmitStartsTheFirstJob : Obligations.AsyncTransmitStartsTheFirstJob := by
  unfold Obligations.AsyncTransmitStartsTheFirstJob
  intro s k j rest hcalm htables hlevel hinit hq hsync hresult hjobs hnodup hfree hidle hready
  have hfit := fit_of_tablesOk htables hinit
  have hj : j < s.cfg.numJobs := hfit.seqJob_lt hq (hjobs ▸ List.mem_cons_self)
  have halone : Alone s (s.unitOf j) := .of_tablesOk htables hinit (hfit.unitOf_lt hj) hcalm
  obtain ⟨js, hrun, hlen, hjobAt⟩ := cmdAsyncTransmit_accepted (n := s.inputs.length) hfit hcalm hq hlevel hsync hresult hjobs hnodup
    hfree
  obtain ⟨t, es, hstart, hstarts⟩ := scheduleJob_starts (s := s.accepted k.toNat (rest.length + 1) js) (j := j)
    (n := s.inputs.length) (ctx := .foreground) ⟨halone.dev, halone.lpspi, halone.calm⟩ hidle hready
  have hat := hstarts.jobAt (hlen.symm ▸ hfit.job_lt hj : j < js.length)
  have hne : ∀ i ∈ rest, j ≠ i := fun i hi he => (List.nodup_cons.1 hnodup).1 (he ▸ hi)
  rw [hstart, res_ok_bind] at hrun
  refine ⟨respond eOk t, es, congrArg outcome hrun, ?_, ?_, fun i hi => ?_, fun i hi => ?_, hstarts.curJob, hstarts.units,
    hstarts.dma⟩
  · rw [hstarts.frame]; rfl
  · rw [respond_jobAt, hat, if_pos rfl, hjobAt, if_pos List.mem_cons_self]
  · rw [respond_jobAt, hat, if_neg (hne i hi), hjobAt, if_pos (List.mem_cons_of_mem j hi)]
  · rw [respond_jobAt, hat, if_neg (fun he : j = i => hi (he ▸ List.mem_cons_self)), hjobAt, if_neg hi]

/-- The jobs after the append of `CS3`. -/
theorem enqueue_jobAt {s : State} {n : Nat} (hn : n < s.job.length)
    (ht : ∀ t, (s.unitAt (s.unitOf n)).tailAt (s.cfg.jobAt n).priority = some t → t < s.job.length) (i : Nat) :
    (enqueue n s).jobAt i = { s.jobAt i with
      next := if (s.unitAt (s.unitOf n)).tailAt (s.cfg.jobAt n).priority = some i then some n
        else if n = i then none else (s.jobAt i).next } := by
  simp only [← enqueue_next hn ht i, ← enqueue_owner n s i, ← enqueue_result n s i]

/-- The append, field by field. -/
theorem enqueue_state (j : Nat) (s : State) : enqueue j s = { s with
    job := (enqueue j s).job
    unit := s.unit.set (s.unitOf j) ((s.unitAt (s.unitOf j)).push (s.cfg.jobAt j).priority j) } := by
  obtain ⟨m, ⟨js, rfl⟩, he⟩ := enqueue_eq j s
  rw [he]
  rfl

theorem UnitQ.push_eq (q : UnitQ) (p j : Nat) : q.push p j = { q with
    head := if q.tailAt p = none then q.head.set p (some j) else q.head
    tail := q.tail.set p (some j)
    maxPrio := max q.maxPrio (p : Int) } := by
  have hmax : (if q.maxPrio < (p : Int) then (p : Int) else q.maxPrio) = max q.maxPrio p := by split <;> omega
  rw [UnitQ.push, hmax]
  rfl

/-- Settles O40: the accepted sequence's first job is appended to the list of its level. -/
theorem asyncTransmitQueuesOnABusyUnit : Obligations.AsyncTransmitQueuesOnABusyUnit := by
  unfold Obligations.AsyncTransmitQueuesOnABusyUnit
  intro s k j rest hcalm htables hlevel hinit hq hsync hresult hjobs hnodup hfree hbusy htail
  have hfit := fit_of_tablesOk htables hinit
  have hj : j < s.cfg.numJobs := hfit.seqJob_lt hq (hjobs ▸ List.mem_cons_self)
  obtain ⟨js, hrun, hlen, hjobAt⟩ := cmdAsyncTransmit_accepted (n := s.inputs.length) hfit hcalm hq hlevel hsync hresult hjobs hnodup
    hfree
  obtain ⟨m, hm⟩ : ∃ m, m = s.accepted k.toNat (rest.length + 1) js := ⟨_, rfl⟩
  have hmlen : m.job.length = s.job.length := hm ▸ hlen
  have hmunit : m.unitAt (m.unitOf j) = s.unitAt (s.unitOf j) := by rw [hm]; rfl
  have hmcfg : m.cfg = s.cfg := by rw [hm]; rfl
  rw [← hm] at hrun hjobAt
  have hat := enqueue_jobAt (s := m) (n := j) (hmlen ▸ hfit.job_lt hj)
  rw [hmunit, hmcfg, hmlen] at hat
  replace hat := hat fun i hi => (htail i hi).2
  have hnot : ∀ i ∈ j :: rest, (s.unitAt (s.unitOf j)).tailAt (s.cfg.jobAt j).priority ≠ some i := fun i hi ht => (htail i ht).1 hi
  have hne : ∀ i ∈ rest, j ≠ i := fun i hi he => (List.nodup_cons.1 hnodup).1 (he ▸ hi)
  rw [scheduleJob_waits (by rw [hm]; exact hcalm) (by simp [hmunit, hbusy]), res_ok_bind] at hrun
  refine ⟨_, congrArg outcome hrun, ?_, ?_, fun i hi => ?_, fun i hi => ?_, fun i hi hlast => ?_⟩
  · rw [enqueue_state, UnitQ.push_eq, hm]; rfl
  · rw [respond_jobAt, hat, if_neg (hnot j List.mem_cons_self), if_pos rfl, hjobAt, if_pos List.mem_cons_self]
  · rw [respond_jobAt, hat, if_neg (hnot i (List.mem_cons_of_mem j hi)), if_neg (hne i hi), hjobAt, if_pos (List.mem_cons_of_mem j hi)]
  · rw [respond_jobAt, hat, if_pos hi, hjobAt, if_neg (htail i hi).1]
  · rw [respond_jobAt, hat, if_neg hlast, if_neg (fun he : j = i => hi (he ▸ List.mem_cons_self)), hjobAt, if_neg hi]

end Sys2Proof.Machine

/-! PROOFS of the scheduler family: a job that is not the last of its sequence finishes and the sequence goes on (45_scheduler.md R345,
R346). -/

namespace Sys2Proof.Machine

/-- `CS7` of a job that is not the last: the cursor moves up. -/
theorem finishOne_next {e : SeqState} {r : Nat} (hcancelled : e.result ≠ .cancelled) (hleft : e.remainingJobs = r + 1) (hr : r ≠ 0)
    (hcursor : e.cursor < 65535) : e.finishOne = .ok { e with remainingJobs := r, cursor := e.cursor + 1 } := by
  have hdown : countDown e.remainingJobs = .ok r := countDown_eq_ok.2 hleft
  have hup : countUp e.cursor = .ok (e.cursor + 1) := countUp_eq_ok.2 ⟨hcursor, rfl⟩
  simp only [SeqState.finishOne, hdown, hup, res_ok_bind, if_neg hcancelled, if_neg hr]

/-- The job at any place of a sequence is in range: past the end of the list it is job 0. -/
theorem Fit.cursorJob_lt {s : State} (h : Fit s) {q : Nat} (hq : q < s.cfg.numSeqs) (i : Nat) :
    tget (s.cfg.seqAt q).jobs i < s.cfg.numJobs := by
  by_cases hi : i < (s.cfg.seqAt q).jobs.length
  · exact h.seqJob_lt hq (tget_mem _ _ hi)
  · have hdefault : tget (s.cfg.seqAt q).jobs i = 0 := by simp [tget, List.getElem?_eq_none (Nat.not_lt.1 hi)]
    rw [hdefault]
    exact cfgWellFormed_numJobs_pos h.wf

/-! The two ways of `StartOrScheduleNext` (R346) -/

section
variable {s : State} {q u j n : Nat} {ctx : Ctx} (hj : j = tget (s.cfg.seqAt q).jobs (s.seqAt q).cursor)
include hj

/-- The sequence keeps its unit. -/
theorem startOrScheduleNext_direct (hcalm : s.undisturbed = true) (hu : s.unitOf j = u)
    (hkeeps : (s.cfg.seqAt q).interruptible = false) :
    startOrScheduleNext (deliver n) ctx q u s = jobStart j (s.setJobResult j .pending) := by
  have hcalm' : (s.setJobResult j .pending).undisturbed = true := hcalm
  subst hj
  simp only [startOrScheduleNext, hu, hkeeps, and_self, if_true, deliver_undisturbed hcalm, res_ok_bind, jobTransfer,
    deliver_undisturbed hcalm']

/-- The next job is scheduled, and the unit takes its own next job. -/
theorem startOrScheduleNext_scheduled (hother : ¬ (s.unitOf j = u ∧ (s.cfg.seqAt q).interruptible = false)) :
    startOrScheduleNext (deliver n) ctx q u s = scheduleJob (deliver n) ctx j s >>= scheduleNextJob (deliver n) ctx u := by
  subst hj
  exact if_neg hother

end

/-! A job that waits in an empty queue is the next one taken (R340, R342) -/

theorem enqueue_undisturbed (j : Nat) (s : State) : (enqueue j s).undisturbed = s.undisturbed := by
  obtain ⟨_, _, he⟩ := enqueue_frame j s
  rw [he]
  rfl

/-- The one job of a queue is taken next; the queue is then as it was before that job came. -/
theorem popNext_enqueue_empty {s : State} {j : Nat} (hfit : Fit s) (hj : j < s.cfg.numJobs)
    (hempty : (s.unitAt (s.unitOf j)).Empty) : ∃ js, popNext (s.unitOf j) (enqueue j s) = .ok (some j, { s with job := js }) ∧
      tget js j = { s.jobAt j with result := .pending, next := none } ∧ ∀ i, i ≠ j → tget js i = s.jobAt i := by
  have hlt := hfit.job_lt hj
  have hp := hfit.priority_lt hj
  have hu := hfit.unit_lt (hfit.unitOf_lt hj)
  have hqueue := (holds_nil hu hempty).queue
  have hnone := hempty.tailAt hp
  have hunit : (enqueue j s).unitAt (s.unitOf j) = (s.unitAt (s.unitOf j)).push (s.cfg.jobAt j).priority j :=
    (enqueue_unitAt hu _).trans (if_pos rfl)
  have hjobs := enqueue_jobAt hlt fun t ht => by rw [hnone] at ht; cases ht
  simp only [hnone, reduceCtorEq, if_false] at hjobs
  have hpop := popNext_highest (s := enqueue j s) (u := s.unitOf j) (by rw [hunit]; exact UnitQ.push_ok hqueue hp j) hp (j := j)
    (by rw [hunit, UnitQ.headAt_push hqueue hp, if_pos ⟨rfl, hnone⟩])
    fun p' hlow hhigh => by rw [hunit, UnitQ.headAt_push hqueue hp, if_neg (by omega), hempty.headAt hhigh]
  obtain ⟨htaken, hothers⟩ := popJob_pending_jobAt (s := enqueue j s) (j := j) (s.unitOf j) (s.cfg.jobAt j).priority
  have hunits : ((enqueue j s).popJob (s.unitOf j) (s.cfg.jobAt j).priority j).unit = s.unit := by
    show (enqueue j s).unit.set (s.unitOf j) (((enqueue j s).unitAt (s.unitOf j)).pop (s.cfg.jobAt j).priority
      ((enqueue j s).jobAt j).next) = s.unit
    rw [hunit, hjobs, if_pos rfl, hempty.pop_push hp, congrArg State.unit (enqueue_state j s), List.set_set]
    exact set_tget_self _ _
  have hrest : ∀ us js, { enqueue j s with unit := us, job := js } = { s with unit := us, job := js } := fun us js => by
    obtain ⟨_, _, he⟩ := enqueue_frame j s
    rw [he]
  obtain ⟨m, hm⟩ : ∃ m, m = ((enqueue j s).popJob (s.unitOf j) (s.cfg.jobAt j).priority j).setJobResult j .pending := ⟨_, rfl⟩
  have hstate : m = { s with job := m.job } := by
    rw [hm]
    refine (hrest _ _).trans ?_
    rw [hunits]
    rfl
  rw [← hm] at hpop htaken hothers
  refine ⟨m.job, hpop.trans (congrArg (fun x => Except.ok (some j, x)) hstate), ?_, fun i hi => ?_⟩
  · refine (htaken ?_).trans ?_
    · rw [enqueue_job_length]; exact hlt
    · rw [hjobs, if_pos rfl]
  · refine (hothers i hi).trans ?_
    rw [hjobs, if_neg hi.symm]

theorem scheduleNextJob_some {s t : State} {u j n : Nat} {ctx : Ctx} (hcalm : s.undisturbed = true) (hnext : popNext u s = .ok (some j, t))
    (hcalm' : t.undisturbed = true) : scheduleNextJob (deliver n) ctx u s = jobStart j t := by
  simp only [scheduleNextJob, deliver_undisturbed hcalm, hnext, res_ok_bind, jobTransfer, deliver_undisturbed hcalm']

/-! The sequence goes on: on the same unit at once or through an empty queue, or on another unit (R346) -/

section
variable {s : State} {q u j n : Nat} {ctx : Ctx} (hfit : Fit s) (hcalm : s.undisturbed = true) (hlt : j < s.cfg.numJobs)
  (hj : j = tget (s.cfg.seqAt q).jobs (s.seqAt q).cursor)
include hfit hcalm hlt hj

/-- On the same unit the next job starts, `PENDING`; nothing else is written before. -/
theorem startOrScheduleNext_sameUnit (hu : s.unitOf j = u) (hbusy : (s.unitAt u).status = .busy)
    (hhow : (s.cfg.seqAt q).interruptible = false ∨ (s.unitAt u).Empty) :
    ∃ js, startOrScheduleNext (deliver n) ctx q u s = jobStart j { s with job := js } ∧
      (tget js j).result = .pending ∧ (tget js j).owner = (s.jobAt j).owner ∧ ∀ i, i ≠ j → tget js i = s.jobAt i := by
  by_cases hkeeps : (s.cfg.seqAt q).interruptible = false
  · have hat : tget (s.setJobResult j .pending).job j = { s.jobAt j with result := .pending } :=
      tget_tset_same _ _ _ (hfit.job_lt hlt)
    exact ⟨_, startOrScheduleNext_direct hj hcalm hu hkeeps, congrArg JobState.result hat, (congrArg JobState.owner hat).trans rfl,
      fun i hi => tget_tset_ne _ _ _ _ hi.symm⟩
  · subst hu
    obtain ⟨js, hpop, hat, hothers⟩ := popNext_enqueue_empty hfit hlt (hhow.resolve_left hkeeps)
    have hcalm' : (enqueue j s).undisturbed = true := enqueue_undisturbed j s ▸ hcalm
    refine ⟨js, ?_, by rw [hat], by rw [hat], hothers⟩
    rw [startOrScheduleNext_scheduled hj fun h => hkeeps h.2, scheduleJob_waits hcalm (by simp [hbusy]), res_ok_bind,
      scheduleNextJob_some hcalm' hpop hcalm]

variable (hu : s.unitOf j ≠ u) (hnone : (s.unitAt u).maxPrio < 0)
include hu hnone

omit hfit hlt in
/-- The other unit is idle: the next job claims it, and the old unit becomes idle. -/
theorem startOrScheduleNext_otherIdle (halone : Alone s (s.unitOf j)) (hidle : (s.unitAt (s.unitOf j)).status = .idle)
    (hready : s.jobReady j = true) : ∃ t es, startOrScheduleNext (deliver n) ctx q u s = .ok (t.setUnitStatus u .idle) ∧
      StartsJob (s.claimed j) t (s.unitOf j) j es ∧ t.unitAt u = s.unitAt u := by
  obtain ⟨t, es, hstart, hstarts⟩ := scheduleJob_starts (n := n) (ctx := ctx) halone hidle hready
  have hunit : t.unitAt u = s.unitAt u := by
    rw [hstarts.frame]
    exact unitAt_setUnit_ne s _ _ _ hu
  have hcalm' : t.undisturbed = true := by rw [hstarts.frame]; exact hcalm
  refine ⟨t, es, ?_, hstarts, hunit⟩
  rw [startOrScheduleNext_scheduled hj fun h => hu h.1, hstart, res_ok_bind, scheduleNextJob_none hcalm' (by rw [hunit]; exact hnone)]

/-- The other unit is not idle: the next job waits there, and the old unit becomes idle. -/
theorem startOrScheduleNext_otherBusy (hwait : (s.unitAt (s.unitOf j)).status ≠ .idle) :
    startOrScheduleNext (deliver n) ctx q u s = .ok ((enqueue j s).setUnitStatus u .idle) ∧ (enqueue j s).unitAt u = s.unitAt u := by
  have hunit : (enqueue j s).unitAt u = s.unitAt u :=
    (enqueue_unitAt (hfit.unit_lt (hfit.unitOf_lt hlt)) u).trans (if_neg hu)
  have hcalm' : (enqueue j s).undisturbed = true := enqueue_undisturbed j s ▸ hcalm
  refine ⟨?_, hunit⟩
  rw [startOrScheduleNext_scheduled hj fun h => hu h.1, scheduleJob_waits hcalm hwait, res_ok_bind,
    scheduleNextJob_none hcalm' (by rw [hunit]; exact hnone)]

end

/-- Settles O47: `CS7` of a job that is not the last, and the two ways of `StartOrScheduleNext`. -/
theorem sequenceGoesOn : Obligations.SequenceGoesOn := by
  unfold Obligations.SequenceGoesOn
  refine ⟨fun n ctx s j q r hcalm howner hcancelled hleft hr hcursor => ?_, fun n ctx s q u j hcalm htables hinit hq hj => ?_⟩
  · rw [jobTransferFinished_eq hcalm howner (finishOne_next hcancelled hleft hr hcursor), if_neg hcancelled,
      if_neg (show (s.seqAt q).remainingJobs - 1 ≠ 0 by omega)]
    rfl
  · have hfit := fit_of_tablesOk htables hinit
    have hlt : j < s.cfg.numJobs := hj ▸ hfit.cursorJob_lt hq _
    have halone : Alone s (s.unitOf j) := .of_tablesOk htables hinit (hfit.unitOf_lt hlt) hcalm
    refine ⟨fun hu hbusy hready hhow => ?_, fun hu hnone => ⟨fun hidle hready => ?_, fun hwait => ?_⟩⟩
    · obtain ⟨js, hrun, hresult, howner, hothers⟩ := startOrScheduleNext_sameUnit (n := n) (ctx := ctx) hfit hcalm hlt hj hu hbusy
        (hhow.imp_right fun ⟨hhead, htail, hmax⟩ => ⟨hhead, htail, hmax⟩)
      obtain ⟨t, es, hstart, hstarts⟩ := jobStart_ready (s := { s with job := js }) ⟨halone.dev, halone.lpspi, halone.calm⟩ rfl hready
      have hjobAt : ∀ i, t.jobAt i = tget js i := fun i => by rw [hstarts.frame]; rfl
      subst hu
      refine ⟨t, hrun.trans hstart, by rw [hstarts.frame], by rw [hstarts.frame], by rw [hstarts.frame], ?_, ?_, fun i hi => ?_,
        hstarts.curJob, hstarts.units⟩
      · rw [hjobAt, hresult]
      · rw [hjobAt, howner]
      · rw [hjobAt, hothers i hi]
    · obtain ⟨t, es, hrun, hstarts, hunit⟩ := startOrScheduleNext_otherIdle (n := n) (ctx := ctx) hcalm hj hu hnone halone hidle
        hready
      refine ⟨t.setUnitStatus u .idle, es, hrun, ?_, hstarts.curJob, hstarts.units, hstarts.dma⟩
      rw [State.setUnitStatus, hunit, hstarts.frame]
      rfl
    · obtain ⟨hrun, hunit⟩ := startOrScheduleNext_otherBusy (n := n) (ctx := ctx) hfit hcalm hlt hj hu hnone hwait
      rw [hrun, State.setUnitStatus, hunit]
      rfl

end Sys2Proof.Machine

/-! PROOFS of the cancellation family (46_cancel.md): what the clean-up unlocks (R375), the `CANCEL` that only marks its sequence
(R370), and the forced stop of a job in flight on a slave unit (R378, R379). -/

namespace Sys2Proof.Machine

/-! `UnlockRemainingJobs` (R375) -/

/-- A job that has an owner is in the table: past its end the default is read, which has none. -/
theorem lt_of_jobAt_owner {s : State} {j q : Nat} (h : (s.jobAt j).owner = some q) : j < s.job.length := by
  by_contra hout
  rw [State.jobAt, tget_out _ _ (Nat.le_of_not_lt hout)] at h
  cases h

/-- One pass of the loop of `UnlockRemainingJobs`. -/
theorem unlockOne_jobAt (s : State) (q j i : Nat) :
    (if (s.jobAt j).owner = some q then s.setJobOwner j none else s).jobAt i =
      if j = i ∧ (s.jobAt i).owner = some q then { s.jobAt i with owner := none } else s.jobAt i := by
  by_cases howner : (s.jobAt j).owner = some q
  · rw [if_pos howner, State.setJobOwner, jobAt_setJob (lt_of_jobAt_owner howner)]
    by_cases he : j = i
    · subst he; rw [if_pos rfl, if_pos ⟨rfl, howner⟩]
    · rw [if_neg he, if_neg fun hc => he hc.1]
  · rw [if_neg howner, if_neg]
    rintro ⟨rfl, hc⟩
    exact howner hc

/-- Each job of any list, once its sequence no longer owns it. -/
theorem unlockRemaining_jobAt_eq (q : Nat) (l : List Nat) (s : State) (i : Nat) : (unlockRemaining q l s).jobAt i =
    if i ∈ l ∧ (s.jobAt i).owner = some q then { s.jobAt i with owner := none } else s.jobAt i := by
  induction l generalizing s with
  | nil => exact (if_neg fun hc => nomatch hc.1).symm
  | cons j rest ih =>
    rw [unlockRemaining, ih, unlockOne_jobAt]
    by_cases howner : (s.jobAt i).owner = some q
    · by_cases he : j = i <;> simp [he, howner, eq_comm (a := i)]
    · simp [howner]

/-- Settles O48: each pass of the loop writes the owner of one job, and only where the sequence owns it. -/
theorem unlockRemainingJobs : Obligations.UnlockRemainingJobs := by
  unfold Obligations.UnlockRemainingJobs
  refine fun s q jobs => ⟨unlockRemaining_onlyJob q jobs s, fun j hj howner => ?_, fun j hother => ?_⟩
  · rw [unlockRemaining_jobAt_eq, if_pos ⟨hj, howner⟩]
  · rw [unlockRemaining_jobAt_eq, if_neg (not_and_or.2 hother)]

/-! `CANCEL` past its checks (R370) -/

/-- The three ways of `CANCEL` of a sequence in range. -/
theorem cmdCancel_inRange {b : Boundary} {ctx : Ctx} {s : State} {q : Nat} (hlevel : s.params.level ≠ .syncOnly)
    (hinit : s.drvInit = true) (hq : q < s.cfg.numSeqs) : cmdCancel b ctx q s =
      if s.seqIsSync q = true ∨ (s.seqAt q).result ≠ .pending then .ok (respond 0 s)
      else if s.slaveInFlight q = true then
        slaveCancel b ctx (s.unitOf (s.cursorJob q)) (s.cursorJob q) (s.setSeqResult q .cancelled) >>= fun t => .ok (respond 0 t)
      else .ok (respond 0 (s.setSeqResult q .cancelled)) := by
  have hrange : ¬ s.seqInRange q = false := by simp [State.seqInRange, hq]
  rw [cmdCancel, if_neg (by simp [hasAsync_of_ne_syncOnly hlevel]), if_neg (by simp [hinit]), if_neg hrange]

/-- Settles O49: two of the three ways of `CANCEL`. -/
theorem cancelMarksTheSequence : Obligations.CancelMarksTheSequence := by
  unfold Obligations.CancelMarksTheSequence
  intro s k hlevel hinit hq
  have hcancel := cmdCancel_inRange (b := s.boundary) (ctx := .foreground) hlevel hinit hq
  refine ⟨fun hnothing => ?_, fun hasync hpending hslave => ?_⟩
  · rw [if_pos hnothing, respond_eq_says] at hcancel
    exact congrArg outcome hcancel
  · rw [if_neg (by simp [hasync, hpending]), if_neg (by simp [hslave]), respond_eq_says] at hcancel
    exact congrArg outcome hcancel

/-! The wait for the module (R378, R379) -/

theorem waitBudget_eq_succ (l : List Arrival) : ∃ n, waitBudget l = n + 1 := by
  induction l with
  | nil => exact ⟨0, rfl⟩
  | cons a rest ih =>
    obtain ⟨n, hn⟩ := ih
    exact ⟨_ + n, by rw [waitBudget, hn, Nat.add_assoc]⟩

/-- With nothing waiting that could clear the busy flag no number of reads is enough (log 16). -/
theorem waitNotBusy_busy {s : State} {u : Nat} (hcalm : s.undisturbed = true) (hbusy : (s.lpspiAt u).mbf = true) (n : Nat) :
    waitNotBusy u n s = .error (.fault .moduleBusyForever) := by
  induction n generalizing s with
  | zero => rfl
  | succ n ih =>
    simp only [waitNotBusy, readStat_undisturbed hcalm, hbusy, if_true]
    exact ih hcalm hbusy

/-- A module that is not busy takes one read. -/
theorem waitNotBusy_free {s : State} {u : Nat} (hcalm : s.undisturbed = true) (hfree : (s.lpspiAt u).mbf = false) (l : List Arrival) :
    waitNotBusy u (waitBudget l) s = .ok (s.emit (.regRead u (.stat (s.lpspiAt u).tdf (s.lpspiAt u).rdf false))) := by
  obtain ⟨n, hn⟩ := waitBudget_eq_succ l
  simp [hn, waitNotBusy, readStat_undisturbed hcalm, hfree]

/-! The forced stop of a slave's job (R378) -/

/-- What `SlaveCancel` does before the wait: the interrupt of unit `u` off, its DMA channels stopped. -/
def State.silenced (s : State) (u : Nat) : State :=
  if (s.cfg.unitAt u).dmaUsed = true then dmaStop (s.cfg.unitAt u).dmaRxCh (dmaStop (s.cfg.unitAt u).dmaTxCh (irqOff u s))
  else irqOff u s

theorem slaveStop_eq (u : Nat) (s : State) : slaveStop u s =
    waitNotBusy u (waitBudget (s.silenced u).inputs) (s.silenced u) >>= fun t =>
      regWrite u (.ctrl true true) t >>= fun t => .ok (leaveSlaveJob u t) := by
  have hcfg : (irqOff u s).cfg = s.cfg := by unfold irqOff; split <;> rfl
  simp only [slaveStop, State.silenced, hcfg]

/-- The entries of `State.silenced`. -/
def State.silenceEntries (s : State) (u : Nat) : List Entry :=
  (if (s.devAt u).irqEnabled = true then [.irqEnable u false] else []) ++
    if (s.cfg.unitAt u).dmaUsed = true then [.dmaStop (s.cfg.unitAt u).dmaTxCh, .dmaStop (s.cfg.unitAt u).dmaRxCh] else []

/-- A DMA channel after `DmaStop` (42_engine_dma.md R251). -/
def DmaChan.stopped (d : DmaChan) : DmaChan := { d with active := false, done := false }

@[simp] theorem DmaChan.stopped_stopped (d : DmaChan) : d.stopped.stopped = d.stopped := rfl

/-- Channel `ch` once the DMA channels of unit `u` are stopped: the others are as before. -/
def State.stoppedDmaAt (s : State) (u ch : Nat) : DmaChan :=
  if (s.cfg.unitAt u).dmaUsed = true ∧ (ch = (s.cfg.unitAt u).dmaTxCh ∨ ch = (s.cfg.unitAt u).dmaRxCh) then
    (s.dmaAt ch).stopped
  else s.dmaAt ch

theorem dmaStop_dmaAt (s : State) (ch ch' : Nat) :
    (dmaStop ch s).dmaAt ch' = if ch' = ch then (s.dmaAt ch').stopped else s.dmaAt ch' := by
  obtain ⟨hsame, hother⟩ := setDma_dmaAt s ch (s.dmaAt ch).stopped
  split
  next he => subst he; exact hsame
  next hne => exact hother ch' hne

/-- `IrqOff`, whether the interrupt was enabled or not. -/
theorem irqOff_eq_onUnit (s : State) (u : Nat) : irqOff u s = s.onUnit u s.mem { s.devAt u with irqEnabled := false } (s.lpspiAt u)
    (if (s.devAt u).irqEnabled = true then [.irqEnable u false] else []) := by
  have hself := onUnit_self s u
  by_cases hirq : (s.devAt u).irqEnabled = true
  · have hdev := setDev_onUnit s u s.mem (s.devAt u) (s.lpspiAt u) [] { s.devAt u with irqEnabled := false }
    rw [hself] at hdev
    rw [irqOff, if_pos hirq, if_pos hirq, hdev, emit_onUnit, List.nil_append]
  · have hoff : { s.devAt u with irqEnabled := false } = s.devAt u := by
      rw [← Bool.eq_false_of_not_eq_true hirq]
    rw [irqOff, if_neg hirq, if_neg hirq, hoff, hself]

theorem silenced_eq (s : State) (u : Nat) : ∃ ds, s.silenced u = ({ s with dma := ds } : State).onUnit u s.mem
      { s.devAt u with irqEnabled := false } (s.lpspiAt u) (s.silenceEntries u) ∧
    ∀ ch, dmaLookup ds ch = s.stoppedDmaAt u ch := by
  unfold State.silenced State.silenceEntries State.stoppedDmaAt
  by_cases hdma : (s.cfg.unitAt u).dmaUsed = true
  · have hat := dmaStop_dmaAt (dmaStop (s.cfg.unitAt u).dmaTxCh s) (s.cfg.unitAt u).dmaRxCh
    simp only [dmaStop_dmaAt s] at hat
    refine ⟨(dmaStop (s.cfg.unitAt u).dmaRxCh (dmaStop (s.cfg.unitAt u).dmaTxCh s)).dma, ?_, fun ch => (hat ch).trans ?_⟩
    · rw [if_pos hdma, if_pos hdma, irqOff_eq_onUnit]
      simp [State.onUnit, dmaStop, State.setDma, State.emit, State.dmaAt]
    · by_cases htx : ch = (s.cfg.unitAt u).dmaTxCh <;> simp [hdma, htx]
  · refine ⟨s.dma, ?_, fun ch => (if_neg fun hc => hdma hc.1).symm⟩
    rw [if_neg hdma, if_neg hdma, irqOff_eq_onUnit, List.append_nil]

section
variable {s : State} {u : Nat} (h : Alone s u)
include h

/-- With the module busy for ever the stop does not come to its end (R379; log 16). -/
theorem slaveStop_busy (hbusy : (s.lpspiAt u).mbf = true) : slaveStop u s = .error (.fault .moduleBusyForever) := by
  obtain ⟨ds, hsilenced, -⟩ := silenced_eq s u
  have halone : Alone ({ s with dma := ds } : State) u := ⟨h.dev, h.lpspi, h.calm⟩
  rw [slaveStop_eq, hsilenced, waitNotBusy_busy halone.onUnit (by rw [lpspiAt_onUnit halone]; exact hbusy), res_error_bind]

/-- The stop: the unit silenced, `STAT` read once, both FIFOs reset, the unit without a job and both sides done. -/
theorem slaveStop_free (hfree : (s.lpspiAt u).mbf = false) : ∃ ds,
    slaveStop u s = .ok (({ s with dma := ds } : State).onUnit u s.mem
      { s.devAt u with curJob := none, contCSActive := false, txDone := true, rxDone := true, irqEnabled := false }
      { s.lpspiAt u with resetTxReq := true, resetRxReq := true, txFifo := [], shifting := none, rxFifo := [] }
      (s.silenceEntries u ++ [.regRead u (.stat (s.lpspiAt u).tdf (s.lpspiAt u).rdf false), .regWrite u (.ctrl true true)])) ∧
    ∀ ch, dmaLookup ds ch = s.stoppedDmaAt u ch := by
  obtain ⟨ds, hsilenced, hdma⟩ := silenced_eq s u
  have halone : Alone ({ s with dma := ds } : State) u := ⟨h.dev, h.lpspi, h.calm⟩
  refine ⟨ds, ?_, hdma⟩
  rw [slaveStop_eq, hsilenced, waitNotBusy_free halone.onUnit (by rw [lpspiAt_onUnit halone]; exact hfree), res_ok_bind, emit_onUnit,
    regWrite_onUnit halone rfl, res_ok_bind, leaveSlaveJob, devAt_onUnit halone, setDev_onUnit, lpspiAt_onUnit halone,
    List.append_assoc]
  rfl

variable {j n : Nat} {ctx : Ctx} (hcur : (s.devAt u).curJob = some j)
include hcur

/-- `SlaveCancel` of the job in flight: the stop, then the job's end. -/
theorem slaveCancel_inFlight : slaveCancel (deliver n) ctx u j s = slaveStop u s >>= jobTransferFinished (deliver n) ctx j := by
  rw [slaveCancel, deliver_undisturbed h.calm, res_ok_bind, if_pos hcur]

/-- `SlaveCancel` of a job of a cancelled sequence, with nothing waiting for its unit: after the stop the job is finished, the
sequence cleaned up and the unit idle (R374, R378, 45_scheduler.md R345). -/
theorem slaveCancel_ends {q : Nat} {e : SeqState} (hu : u = s.unitOf j) (hfree : (s.lpspiAt u).mbf = false)
    (hcancelled : (s.seqAt q).result = .cancelled) (howner : (s.jobAt j).owner = some q) (hone : (s.seqAt q).finishOne = .ok e)
    (hnone : (s.unitAt u).maxPrio < 0) (hj : j < s.job.length) (hjobs : ∀ i ∈ (s.cfg.seqAt q).jobs, i < s.job.length) :
    ∃ ds js, slaveCancel (deliver n) ctx u j s = .ok { s with
        seq := s.seq.set q e
        unit := s.unit.set u { s.unitAt u with status := .idle }
        dev := s.dev.set u { s.devAt u with
          curJob := none, contCSActive := false, txDone := true, rxDone := true, irqEnabled := false }
        lpspi := s.lpspi.set u { s.lpspiAt u with resetTxReq := true, resetRxReq := true, txFifo := [], shifting := none, rxFifo := [] }
        dma := ds
        job := js
        trace := s.trace ++ (s.silenceEntries u ++
          [.regRead u (.stat (s.lpspiAt u).tdf (s.lpspiAt u).rdf false), .regWrite u (.ctrl true true)]) ++
          notice (s.cfg.jobAt j).endNotif .jobEnd j ++
          notice (s.params.cancelFiresSeqEnd && (s.cfg.seqAt q).endNotif) .seqEnd q } ∧
      (∀ ch, dmaLookup ds ch = s.stoppedDmaAt u ch) ∧
      ∀ i, tget js i = if j = i then { s.jobAt j with owner := none, result := .ok }
        else if i ∈ (s.cfg.seqAt q).jobs ∧ (s.jobAt i).owner = some q then { s.jobAt i with owner := none } else s.jobAt i := by
  obtain ⟨ds, hstop, hdma⟩ := slaveStop_free h hfree
  have halone : Alone ({ s with dma := ds } : State) u := ⟨h.dev, h.lpspi, h.calm⟩
  subst hu
  obtain ⟨js, hfinished, hjobAt⟩ := jobTransferFinished_cancelled (n := n) (ctx := ctx) (j := j) halone.onUnit howner hone hnone
    hcancelled hj hjobs
  refine ⟨ds, js, ?_, hdma, hjobAt⟩
  rw [slaveCancel_inFlight h hcur, hstop, res_ok_bind, hfinished]
  rfl

end

/-- `CANCEL` of a sequence whose current job is in flight on a slave unit: the sequence is marked, then `SlaveCancel` (R370). -/
theorem exec_cancel_slave {s : State} {k : BitVec 16} (hlevel : s.params.level ≠ .syncOnly) (hinit : s.drvInit = true)
    (hq : k.toNat < s.cfg.numSeqs) (hasync : s.seqIsSync k.toNat = false) (hpending : (s.seqAt k.toNat).result = .pending)
    (hslave : s.slaveInFlight k.toNat = true) : exec (.cancel k) s = outcome (slaveCancel s.boundary .foreground
      (s.unitOf (s.cursorJob k.toNat)) (s.cursorJob k.toNat) (s.setSeqResult k.toNat .cancelled) >>= fun t => .ok (respond 0 t)) := by
  have hcancel := cmdCancel_inRange (b := s.boundary) (ctx := .foreground) hlevel hinit hq
  rw [if_neg (by simp [hasync, hpending]), if_pos hslave] at hcancel
  exact congrArg outcome hcancel

/-- Settles O50: the forced stop is stuck or ends, and then the job of the cancelled sequence is finished and cleaned up. -/
theorem cancelStopsASlave : Obligations.CancelStopsASlave := by
  unfold Obligations.CancelStopsASlave
  intro s k j u hcalm htables hlevel hinit hq hasync hpending hj hu hslave
  have hfit := fit_of_tablesOk htables hinit
  have hlt : j < s.cfg.numJobs := hj ▸ hfit.cursorJob_lt hq _
  have hmarked : Alone (s.setSeqResult k.toNat .cancelled) u := by
    have halone : Alone s u := hu ▸ .of_tablesOk htables hinit (hfit.unitOf_lt hlt) hcalm
    exact ⟨halone.dev, halone.lpspi, halone.calm⟩
  have hexec := exec_cancel_slave hlevel hinit hq hasync hpending hslave
  rw [State.slaveInFlight, ← hj, ← hu, Bool.and_eq_true, decide_eq_true_eq] at hslave
  obtain ⟨-, hcur⟩ := hslave
  rw [← hj, ← hu, State.boundary] at hexec
  refine ⟨fun hbusy => ?stuck, fun hfree howner hleft hnone => ?stopped⟩
  case stuck =>
    rw [hexec, slaveCancel_inFlight hmarked hcur, slaveStop_busy hmarked hbusy]
    rfl
  case stopped =>
    obtain ⟨r, hr⟩ := Nat.exists_eq_add_one.2 hleft
    have hseq : (s.setSeqResult k.toNat .cancelled).seqAt k.toNat = { s.seqAt k.toNat with result := .cancelled } :=
      seqAt_setSeq_same s _ _ (hfit.seq_lt hq)
    have hone : ((s.setSeqResult k.toNat .cancelled).seqAt k.toNat).finishOne =
        .ok { s.seqAt k.toNat with result := .cancelled, remainingJobs := (s.seqAt k.toNat).remainingJobs - 1 } := by
      rw [hseq, hr]
      exact finishOne_cancelled rfl hr
    obtain ⟨ds, js, hcancel, hdma, hjobAt⟩ := slaveCancel_ends (n := s.inputs.length) (ctx := .foreground) hmarked hcur hu hfree
      (congrArg SeqState.result hseq) howner hone hnone (hfit.job_lt hlt) fun i hi => hfit.job_lt (hfit.seqJob_lt hq hi)
    rw [hcancel, res_ok_bind, outcome_ok] at hexec
    refine ⟨_, hexec, ?_, hdma, (hjobAt j).trans (if_pos rfl), fun i hi hmem howned => (hjobAt i).trans ?_,
      fun i hi hother => (hjobAt i).trans ?_⟩
    · simp only [State.setSeqResult, State.setSeq, tset, List.set_set, respond, State.emit, State.silenceEntries, List.append_assoc]
      rfl
    · rw [if_neg hi.symm]; exact if_pos ⟨hmem, howned⟩
    · rw [if_neg hi.symm]; exact if_neg (not_and_or.2 hother)

end Sys2Proof.Machine

/-! SUPPORT and PROOFS of the exceptions family (60_exceptions.md): the checks of `INIT`, what a command answers before `INIT` and for an
id out of range, and the events that are spurious. -/

namespace Sys2Proof.Machine

/-! The checks of `INIT` (R398) -/

section
variable {s : State} {a0 : Word}

theorem exec_init_initialised (a0 : Word) (hon : s.drvInit = true) :
    exec (.init a0) s = .next (s.says (s.errors 0x01 .alreadyInitialized) 0) := by
  rw [← fail_eq_says]
  exact congrArg outcome (if_pos hon)

theorem exec_init_null (hoff : s.drvInit = false) : exec (.init 0) s = .next (s.says (s.errors 0x01 .paramPointer) 0) := by
  have hinit : cmdInit 0 s = .ok (fail 0x01 .paramPointer 0 s) := by rw [cmdInit, if_neg (by simp [hoff]), if_pos rfl]
  rw [← fail_eq_says]
  exact congrArg outcome hinit

theorem exec_init_illFormed {c : Cfg} (hoff : s.drvInit = false) (hne : a0 ≠ 0) (hc : lookupConfig s.hostConfigs a0 = some c)
    (hbad : cfgWellFormed s.params c = false) : exec (.init a0) s = .next (s.says (s.errors 0x01 .paramConfig) 0) := by
  have hinit : cmdInit a0 s = .ok (fail 0x01 .paramConfig 0 s) := by
    rw [cmdInit, if_neg (by simp [hoff]), if_neg hne, hc]
    exact if_neg (by simp [hbad])
  rw [← fail_eq_says]
  exact congrArg outcome hinit

/-- Whatever `INIT` does, it ends with the response 0. -/
theorem cmdInit_responds {t : State} (h : cmdInit a0 s = .ok t) : ∃ m, t = respond 0 m := by
  unfold cmdInit at h
  split at h
  case isTrue => cases h; exact ⟨_, rfl⟩
  case isFalse =>
    split at h
    case isTrue => cases h; exact ⟨_, rfl⟩
    case isFalse =>
      split at h
      case h_1 => cases h; exact ⟨_, rfl⟩
      case h_2 =>
        split at h
        case isTrue =>
          obtain ⟨m, -, hm⟩ := res_bind_eq_ok.1 h
          cases hm; exact ⟨m, rfl⟩
        case isFalse => cases h; exact ⟨_, rfl⟩

end

section
variable {p : Params} {c : Cfg} (hwf : cfgWellFormed p c = true)
include hwf

theorem cfgWellFormed_sizes_le : c.numChannels ≤ p.maxChannels ∧ c.numJobs ≤ p.maxJobs ∧ c.numSeqs ≤ p.maxSequences := by
  obtain ⟨hsizes, -⟩ := cfgWellFormed_parts hwf
  simp only [sizesOk, Bool.and_eq_true, decide_eq_true_eq] at hsizes
  omega

theorem cfgWellFormed_channels_ne_nil {j : JobCfg} (hj : j ∈ c.jobs) : j.channels ≠ [] := by
  obtain ⟨-, -, hjobs, -⟩ := cfgWellFormed_parts hwf
  have hok := hjobs j hj
  simp only [jobOk, Bool.and_eq_true, Bool.not_eq_true', List.isEmpty_eq_false_iff] at hok
  obtain ⟨⟨⟨⟨⟨hne, -⟩, -⟩, -⟩, -⟩, -⟩ := hok
  exact hne

end

/-- Settles O18: each check is an equation of `INIT`; a well-formed configuration is of a size that fits and has no empty list; every
path of `INIT` ends in its response. -/
theorem initRefusesBadConfigurations : Obligations.InitRefusesBadConfigurations := by
  unfold Obligations.InitRefusesBadConfigurations
  refine ⟨fun s a0 => ⟨exec_init_initialised a0, fun hoff hnull => hnull ▸ exec_init_null hoff, fun c => exec_init_illFormed⟩,
    fun p c hbad => Bool.eq_false_iff.2 fun hwf => ?wellFormed, fun s t a0 h => ?responds⟩
  case wellFormed =>
    have hunits := cfgWellFormed_numUnits_le hwf
    obtain ⟨hchannels, hjobs, hseqs⟩ := cfgWellFormed_sizes_le hwf
    obtain hlt | hlt | hlt | hlt | ⟨j, hj, hnil⟩ | ⟨q, hq, hnil⟩ := hbad
    · omega
    · omega
    · omega
    · omega
    · exact cfgWellFormed_channels_ne_nil hwf hj hnil
    · exact List.ne_nil_of_length_pos (cfgWellFormed_jobs_pos hwf hq) hnil
  case responds =>
    obtain ⟨m, rfl⟩ := cmdInit_responds (outcome_eq_next.1 h)
    exact ⟨m.trace, respond_trace m 0⟩

/-! Commands that fail at one of their first checks (R394, R395) -/

/-- The opcode and the failure value of a command that checks `DrvInit` (R394). -/
def failureOf : Instr → Option (Byte × Word)
  | .deinit => some (0x02, eNotOk)
  | .writeIb _ _ => some (0x03, eNotOk)
  | .readIb _ _ => some (0x04, eNotOk)
  | .setupEb _ _ _ _ => some (0x05, eNotOk)
  | .syncTransmit _ => some (0x06, eNotOk)
  | .asyncTransmit _ => some (0x07, eNotOk)
  | .cancel _ => some (0x08, 0)
  | .getJobResult _ => some (0x09, jobResultCode .failed)
  | .getSeqResult _ => some (0x0A, seqResultCode .failed)
  | .getHwunitStatus _ => some (0x0C, statusCode .uninit)
  | .setAsyncMode _ => some (0x0D, eNotOk)
  | .setHwunitAsyncMode _ _ => some (0x0E, eNotOk)
  | .init _ | .getStatus | .mainFunctionHandling | .evFifo _ | .evDmaTx _ | .evDmaRx _ => none

/-- What a command compares its id with, in the configuration: the error it reports, the id and the count of the id's kind (R395). -/
def idCheckOf (c : Cfg) : Instr → Option (ErrName × Nat × Nat)
  | .writeIb k _ | .readIb k _ | .setupEb k _ _ _ => some (.paramChannel, k.toNat, c.numChannels)
  | .syncTransmit k | .asyncTransmit k | .cancel k | .getSeqResult k => some (.paramSeq, k.toNat, c.numSeqs)
  | .getJobResult k => some (.paramJob, k.toNat, c.numJobs)
  | .getHwunitStatus k | .setHwunitAsyncMode k _ => some (.paramUnit, k.toNat, c.numUnits)
  | _ => none

theorem hasSync_of_ne_asyncOnly {s : State} (h : s.params.level ≠ .asyncOnly) : s.hasSync = true := decide_eq_true h

section
variable {s : State} {i : Instr} {op : Byte} {v : Word} {e : ErrName} {id count : Nat} (hfails : failureOf i = some (op, v))
  (hbuilt : ¬ LacksCommand s.params i)
include hfails hbuilt

/-- The check of `DrvInit` comes before every other check of a command that the variant has (R394). -/
theorem exec_uninit (hoff : s.drvInit = false) : exec i s = .next (s.says (s.errors op .uninit) v) := by
  rw [exec_eq_runInstr, outcome_eq_next, ← fail_eq_says]
  cases i with
  | init | getStatus | mainFunctionHandling | evFifo | evDmaTx | evDmaRx => cases hfails
  | syncTransmit =>
    cases hfails
    have hvariant := hasSync_of_ne_asyncOnly hbuilt
    exact (if_neg (by simp [hvariant])).trans (if_pos hoff)
  | asyncTransmit | cancel | setAsyncMode | setHwunitAsyncMode =>
    cases hfails
    have hvariant := hasAsync_of_ne_syncOnly hbuilt
    exact (if_neg (by simp [hvariant])).trans (if_pos hoff)
  | _ => cases hfails; exact if_pos hoff

/-- The check of the id comes next: it reads nothing but the count (R395). -/
theorem exec_idOutOfRange (hcheck : idCheckOf s.cfg i = some (e, id, count)) (hon : s.drvInit = true) (hid : count ≤ id) :
    exec i s = .next (s.says (s.errors op e) v) := by
  have hinit : ¬ s.drvInit = false := by simp [hon]
  have hrange : decide (id < count) = false := decide_eq_false hid.not_gt
  rw [exec_eq_runInstr, outcome_eq_next]
  cases i with
  | init | deinit | getStatus | setAsyncMode | mainFunctionHandling | evFifo | evDmaTx | evDmaRx => cases hcheck
  | getJobResult => cases hfails; cases hcheck; exact cmdGetJobResult_outOfRange hon hid
  | getSeqResult => cases hfails; cases hcheck; exact cmdGetSeqResult_outOfRange hon hid
  | setHwunitAsyncMode => cases hfails; cases hcheck; exact cmdSetHwunitAsyncMode_badUnit hbuilt hon (.inl hid)
  | syncTransmit =>
    cases hfails; cases hcheck
    have hvariant := hasSync_of_ne_asyncOnly hbuilt
    rw [← fail_eq_says]
    exact (if_neg (by simp [hvariant])).trans ((if_neg hinit).trans (if_pos hrange))
  | asyncTransmit | cancel =>
    cases hfails; cases hcheck
    have hvariant := hasAsync_of_ne_syncOnly hbuilt
    rw [← fail_eq_says]
    exact (if_neg (by simp [hvariant])).trans ((if_neg hinit).trans (if_pos hrange))
  | writeIb | readIb | setupEb | getHwunitStatus =>
    cases hfails; cases hcheck
    rw [← fail_eq_says]
    exact (if_neg hinit).trans (if_pos hrange)

end

theorem exec_mainFunctionHandling_uninit {s : State} (hlevel : s.params.level ≠ .syncOnly) (hoff : s.drvInit = false) :
    exec .mainFunctionHandling s = .next (s.says [] 0) := by
  have hvariant := hasAsync_of_ne_syncOnly hlevel
  have hpass : cmdMainFunctionHandling s.boundary .foreground s = .ok (respond 0 s) := by
    rw [cmdMainFunctionHandling, if_neg (by simp [hvariant]), if_pos hoff]
  rw [← respond_eq_says]
  exact congrArg outcome hpass

/-- Settles O20: one line of `failureOf` each; `GET_STATUS` and `MAIN_FUNCTION_HANDLING` are the two without one. -/
theorem uninitializedCommandsFail : Obligations.UninitializedCommandsFail := by
  unfold Obligations.UninitializedCommandsFail
  refine ⟨fun s k a0 a1 a2 m hoff => ?uninit, fun s a0 => exec_init_initialised a0⟩
  case uninit =>
    refine ⟨exec_uninit rfl not_false hoff, exec_uninit rfl not_false hoff, exec_uninit rfl not_false hoff,
      exec_uninit rfl not_false hoff, fun hsync => exec_uninit rfl hsync hoff, fun hasync => ?async,
      exec_uninit rfl not_false hoff, exec_uninit rfl not_false hoff, exec_uninit rfl not_false hoff, ?status⟩
    case async =>
      exact ⟨exec_uninit rfl hasync hoff, exec_uninit rfl hasync hoff, exec_uninit rfl hasync hoff, exec_uninit rfl hasync hoff,
        exec_mainFunctionHandling_uninit hasync hoff⟩
    case status => rw [exec_getStatus, driverStatus_uninit hoff]; rfl

/-- Settles O21: one line of `idCheckOf` each. -/
theorem idsOutOfRangeFail : Obligations.IdsOutOfRangeFail := by
  unfold Obligations.IdsOutOfRangeFail
  refine fun s k a0 a1 a2 m hon => ⟨fun hk => ?channels, fun hk => ?sequences,
    fun hk => exec_idOutOfRange rfl not_false rfl hon hk, fun hk => ?units⟩
  case channels =>
    exact ⟨exec_idOutOfRange rfl not_false rfl hon hk, exec_idOutOfRange rfl not_false rfl hon hk,
      exec_idOutOfRange rfl not_false rfl hon hk⟩
  case sequences =>
    exact ⟨fun hsync => exec_idOutOfRange rfl hsync rfl hon hk,
      fun hasync => ⟨exec_idOutOfRange rfl hasync rfl hon hk, exec_idOutOfRange rfl hasync rfl hon hk⟩,
      exec_idOutOfRange rfl not_false rfl hon hk⟩
  case units =>
    exact ⟨exec_idOutOfRange rfl not_false rfl hon hk, fun hasync => exec_idOutOfRange rfl hasync rfl hon hk⟩

/-! Spurious events (R412, 00_scope.md R8) -/

/-- What the three kinds of event share, in the order of the tests. -/
theorem eventServed_iff {s : State} {u : Nat} : s.eventServed u = true ↔ s.params.level ≠ .syncOnly ∧ s.drvInit = true ∧
    u < s.cfg.numUnits ∧ (s.cfg.unitAt u).isSync = false ∧ (s.devAt u).asyncMode = .interrupt ∧ (s.devAt u).curJob ≠ none := by
  simp [State.eventServed, State.hasAsync, State.unitInRange, Option.isSome_iff_ne_none]

theorem not_eventServed_iff {s : State} {u : Nat} : ¬ s.eventServed u = true ↔ s.params.level = .syncOnly ∨ s.drvInit = false ∨
    s.cfg.numUnits ≤ u ∨ (s.cfg.unitAt u).isSync = true ∨ (s.devAt u).asyncMode ≠ .interrupt ∨ (s.devAt u).curJob = none := by
  rw [eventServed_iff]
  simp only [not_and_or, not_not, not_lt, Bool.not_eq_true, Bool.not_eq_false]

section
variable {s : State} {unit : BitVec 4}

theorem exec_evFifo_spurious (h : ¬ s.fifoServed unit.toNat = true) : exec (.evFifo unit) s = .next s := congrArg outcome (if_neg h)

theorem exec_evDmaTx_spurious (h : ¬ s.dmaServed unit.toNat (s.cfg.unitAt unit.toNat).dmaTxCh = true) :
    exec (.evDmaTx unit) s = .next s := congrArg outcome (if_neg h)

theorem exec_evDmaRx_spurious (h : ¬ s.dmaServed unit.toNat (s.cfg.unitAt unit.toNat).dmaRxCh = true) :
    exec (.evDmaRx unit) s = .next s := congrArg outcome (if_neg h)

end

section
variable {s : State} {u : Nat}

theorem not_fifoServed (h : (s.cfg.unitAt u).dmaUsed = true ∨ (s.devAt u).irqEnabled = false) : ¬ s.fifoServed u = true := by
  rw [fifoServed_iff]
  rintro ⟨-, hdma, hirq⟩
  obtain h | h := h
  · simp [hdma] at h
  · simp [hirq] at h

theorem not_dmaServed {ch : Nat} (h : (s.cfg.unitAt u).dmaUsed = false ∨ (s.dmaAt ch).done = false) : ¬ s.dmaServed u ch = true := by
  rw [dmaServed_iff]
  rintro ⟨-, hdma, hdone⟩
  obtain h | h := h
  · simp [hdma] at h
  · simp [hdone] at h

end

/-- Settles O6: a handler starts only for an event that is served, and each condition denies one of its tests. -/
theorem spuriousEventsDoNothing : Obligations.SpuriousEventsDoNothing := by
  unfold Obligations.SpuriousEventsDoNothing
  refine fun s unit => ⟨fun hspurious => ?shared, fun h => exec_evFifo_spurious (not_fifoServed h),
    fun h => exec_evDmaTx_spurious (not_dmaServed h), fun h => exec_evDmaRx_spurious (not_dmaServed h)⟩
  case shared =>
    have hnot := not_eventServed_iff.2 hspurious
    exact ⟨exec_evFifo_spurious fun h => hnot (fifoServed_iff.1 h).1, exec_evDmaTx_spurious fun h => hnot (dmaServed_iff.1 h).1,
      exec_evDmaRx_spurious fun h => hnot (dmaServed_iff.1 h).1⟩

end Sys2Proof.Machine
